-- ==== Sys2Proof/Word.lean ====
section
/-! DEFINITION. The plain value types: bytes, table words, and fixed banks of like things. -/

namespace Sys2Proof

/-- A character of the show line, or a byte of a table word. -/
abbrev Byte := BitVec 8

/-- The 32 data bits of a table memory word (R151). -/
abbrev Word := BitVec 32

/-- A bell index, 0..47 (00_scope, Indexes). -/
abbrev BellIx := Fin 48
/-- A figure index, 0..15. -/
abbrev FigIx := Fin 16
/-- A slot index, 0..2: FEATURE, CHIME, AMBIENT. -/
abbrev SlotIx := Fin 3
/-- A show index, 0..31. -/
abbrev ShowIx := Fin 32
/-- A filter index, 0..31. -/
abbrev FilterIx := Fin 32
/-- A guard line index, 0..7. -/
abbrev LineIx := Fin 8
/-- A cue timer index, 0..7. -/
abbrev TimerIx := Fin 8

/-- A fixed number of like things, numbered from 0. -/
abbrev Bank (α : Type) (n : Nat) := Vector α n

/-- Every place of the bank holds `a`. -/
def Bank.const {α : Type} (n : Nat) (a : α) : Bank α n := Vector.replicate n a

/-- The content of place `i`. -/
def Bank.read {α : Type} {n : Nat} (b : Bank α n) (i : Fin n) : α := Vector.get b i

/-- Place `i` changed by `f`; every other place as it was. -/
def Bank.update {α : Type} {n : Nat} (b : Bank α n) (i : Fin n) (f : α → α) : Bank α n :=
  Vector.set b i.val (f (Vector.get b i)) i.isLt

/-- Every place changed by `f`. -/
def Bank.each {α β : Type} {n : Nat} (b : Bank α n) (f : α → β) : Bank β n := Vector.map f b

end Sys2Proof
end

