-- ==== Sys2Proof/Syntax.lean ====
section
/-! DEFINITION. The frames of the show line and the commands of the part: one constructor of `Instr` for
every row of spec/opcode_table.json, in the table's order. -/

namespace Sys2Proof

/-- The two line ports (R115). -/
inductive Port where
  /-- faces the head end -/
  | upline
  /-- faces the nodes -/
  | downline
  deriving DecidableEq, Repr

/-- The two output pins (R110). -/
inductive Pin where
  | stop
  | beacon
  deriving DecidableEq, Repr

/-- A frame of the show line, less its check: destination, source, kind, tag and payload (R116, R171).
The length field is the length of the payload. -/
structure Frame where
  dest    : Byte
  source  : Byte
  kind    : Byte
  tag     : Byte
  payload : List Byte
  deriving DecidableEq, Repr

/-- The frame kind codes of the kind table (12_frame_and_record_layouts). -/
def Kind.time : Byte := 0x01
def Kind.poll : Byte := 0x02
def Kind.quiet : Byte := 0x03
def Kind.request : Byte := 0x04
def Kind.reply : Byte := 0x05
def Kind.attention : Byte := 0x06
def Kind.hammer : Byte := 0x10
def Kind.pose : Byte := 0x11
def Kind.brake : Byte := 0x12
def Kind.position : Byte := 0x18
def Kind.coil : Byte := 0x19

/-- The steps of the part, one per row of the opcode table. A step of the management unit carries no
operand of its own: its parameters are those of the REQUEST frame at the head of the MANAGEMENT intake
queue, which the step takes (R162, assumption log 5). -/
inductive Instr where
  /-- R126, R159: power-up or the reset pin. -/
  | powerOnReset
  /-- R119: a space of 2 ms on the upline receive line. -/
  | lineBreakReset
  /-- R125: the upline line returns to mark. -/
  | lbrEnd
  /-- R126: the transmitters have finished and 1 ms has passed. -/
  | softResetEnd
  /-- R117: a complete frame at a port, with the check it carried. -/
  | frameReceived (port : Port) (frame : Frame) (check : BitVec 16)
  /-- R118: a character with its stop bit at space. -/
  | badStopBit (port : Port)
  /-- R118: a length character of 33..255. -/
  | lengthAbove32 (port : Port) (length : Byte)
  /-- R116: a character in HUNT after a complete frame, before the idle. -/
  | runOnCharacter (port : Port)
  /-- R118: an idle of 40 µs inside a frame. -/
  | truncation (port : Port)
  /-- R116: 40 µs of idle in HUNT. -/
  | receiverReady (port : Port)
  /-- R120: a space of 2 ms on the downline receive line. -/
  | downlineBreak
  /-- R144: the READY downline transmitter chooses a frame. -/
  | downlineTransmitStart
  /-- R145: the READY upline transmitter chooses a frame. -/
  | uplineTransmitStart
  /-- R124: the stop bit of the last check character has been sent. -/
  | frameSent (port : Port)
  /-- R124: 40 µs at mark have passed after a frame. -/
  | spacingEnd (port : Port)
  /-- R2, R8: the wall clock's millisecond. -/
  | clockAdvance
  /-- R11: the running clock has passed a minute later than the stamp. -/
  | minuteBoundaryEvaluation
  /-- R4: the calendar unit takes a CALENDAR intake entry. -/
  | timeFrameTaken
  /-- R18: a running cue timer counts past 16,777,215. -/
  | cueTimerOverflow (timer : TimerIx)
  /-- R24: a RUNNING slot's time reaches its end instant. -/
  | showEnd (slot : SlotIx)
  /-- R33: line time reaches the expiry of a pending start. -/
  | pendingExpiry (slot : SlotIx)
  /-- R48: the slot's barrel reader reads the steps now due. -/
  | barrelStepRead (slot : SlotIx)
  /-- R65: the due head of the strike queue is released. -/
  | strikeRelease
  /-- R71: the 10 ms cooling tick. -/
  | coolingTick
  /-- R75: the strike scheduler takes a BELLS intake entry. -/
  | coilReportTaken
  /-- R82: the 20 ms motion period. -/
  | motionPeriod
  /-- R91: the motion planner takes a FIGURES intake entry. -/
  | positionReportTaken
  /-- R104: a change that makes the guard line asserted is taken. -/
  | guardAssertion (line : LineIx)
  /-- R106: a change that makes the guard line deasserted is taken. -/
  | guardDeassertion (line : LineIx)
  /-- R106: line time reaches the line's settle deadline. -/
  | settleEnd (line : LineIx)
  /-- R111: line time reaches the pin's pulse end. -/
  | pulseEnd (pin : Pin)
  /-- R168: the verify sweep's millisecond. -/
  | verifySweep
  /-- R164. -/
  | tableWrite
  /-- R165. -/
  | tableRead
  /-- R161. -/
  | applyConfig
  /-- R138. -/
  | filterWrite
  /-- R138. -/
  | maskWrite
  /-- R138. -/
  | filterRead
  /-- R139. -/
  | filterEnable
  /-- R30. -/
  | showStart
  /-- R36. -/
  | showStop
  /-- R34. -/
  | showHold
  /-- R35. -/
  | showResume
  /-- R167. -/
  | verifyShow
  /-- R98. -/
  | figureRelease
  /-- R77. -/
  | bellService
  /-- R19, action 0. -/
  | timerRun
  /-- R19, action 1. -/
  | timerStop
  /-- R19, action 2. -/
  | timerStep
  /-- R19, action 3. -/
  | timerTransfer
  /-- R19, action 4. -/
  | timerSetReload
  /-- R19, action 5. -/
  | timerSetBinding
  /-- R112. -/
  | eventRead
  /-- R112. -/
  | eventClear
  /-- R103. -/
  | guardRead
  /-- R166. -/
  | statusRead
  /-- R158. -/
  | errorRead
  /-- R148. -/
  | queueFlush
  /-- R170. -/
  | softReset
  /-- R162, case 2. -/
  | unknownRequest
  /-- R17: a running cue timer's millisecond. -/
  | cueTimerCount (timer : TimerIx)
  /-- R101: the guard inputs' millisecond; bit n of `levels` is input n, 1 for high. -/
  | guardInputSample (levels : BitVec 8)
  /-- R120: the downline receive line returns to mark after a break. -/
  | downlineBreakEnd
  /-- R162: a MANAGEMENT intake entry that is not of kind REQUEST. -/
  | nonRequestEntryDiscarded
  /-- R162, case 1. -/
  | emptyRequest
  deriving DecidableEq, Repr

end Sys2Proof
end

