-- ==== Sys2Proof/Decode.lean ====
section
/-! DEFINITION. The table gives no row any bits: no word spells a command (assumption log 6). -/

namespace Sys2Proof

/-- The command that a word spells by the table's bits. No row of spec/opcode_table.json has bits, so no
word spells one. -/
def decodeTableWord (_nbits _w : Nat) : Option Instr := none

end Sys2Proof
end

