-- ==== Sys2Proof/Config.lean ====
section
/-! DEFINITION. The values the manual leaves open. Each is an opaque constant: nothing in Lean can
evaluate it, so a claim that holds of the model holds whatever the value is. -/

namespace Sys2Proof

/-- What a read makes of the 39 stored bits of a table word (R154). -/
inductive Judged where
  /-- the check bits agree with the data bits -/
  | clean
  /-- one bit is shown in error, at this position -/
  | corrected (position : Fin 39)
  /-- an error the code cannot correct -/
  | uncorrectable
  deriving DecidableEq, Repr, Inhabited

/-- FREE VALUE (assumption log 3). R154: a pattern of three or more bits in error may be judged as any
of the three outcomes. The outcome depends on the word's data bits and on which stored bits are
disturbed, and on nothing else. -/
opaque Config.manyBitsJudged (data : Word) (flips : BitVec 39) : Judged

/-- FREE VALUE (assumption log 4). The n-th byte that the manual leaves without a value: the tag of a
frame no rule gives a tag, or a reply byte whose field has no meaning at that moment. -/
opaque Config.freeByte (n : Nat) : Byte

end Sys2Proof
end

