-- ==== Sys2Proof/Machine/State.lean ====
section
/-! DEFINITION. The state of the part: one structure per block of the manual, `Part` that gathers them,
`State` that adds the queue of waiting commands, and `State.reset`, the machine right after power-on. -/

namespace Sys2Proof.Machine

/-! ## The show line (chapter 07) -/

/-- Whether the part runs or is held in a reset (R119, R126). -/
inductive Phase where
  | running
  /-- from the detection of a line break until the upline line returns to mark -/
  | lineBreak
  /-- from the taking of a SOFT RESET until it ends -/
  | softReset
  deriving DecidableEq, Repr

/-- R116: the three states of a receiver. -/
inductive RxState where
  | ready
  | frame
  | hunt
  deriving DecidableEq, Repr

/-- A receiver. `runOn` is set while a HUNT follows a complete frame and no run-on character has been
counted (R116); `inBreak` while a downline break lasts (R120). -/
structure Receiver where
  state   : RxState
  runOn   : Bool
  inBreak : Bool
  deriving DecidableEq, Repr

/-- A frame with the check it carries on the wire. -/
structure WireFrame where
  frame : Frame
  check : BitVec 16
  deriving DecidableEq, Repr

/-- R124: the three states of a transmitter, with the frame being sent. -/
inductive Transmitter where
  | ready
  | sending (onWire : WireFrame)
  | spacing
  deriving DecidableEq, Repr

/-- R121: the five counts of a port, 16 bits each, stopping at 65535. -/
structure PortCounts where
  received    : Nat
  forwarded   : Nat
  consumed    : Nat
  dropped     : Nat
  checkErrors : Nat
  deriving DecidableEq, Repr

structure LinePort where
  rx     : Receiver
  tx     : Transmitter
  counts : PortCounts
  deriving DecidableEq, Repr

/-! ## Acceptance filters and intake (chapter 08) -/

inductive Direction where
  | up
  | down
  | both
  deriving DecidableEq, Repr

/-- R127: the consumers a filter can name. -/
inductive Action where
  | discard
  | management
  | calendar
  | figures
  | bells
  | poll
  deriving DecidableEq, Repr

/-- R127: the contents of a filter. -/
structure Filter where
  enabled   : Bool
  direction : Direction
  dest      : Byte
  self      : Bool
  source    : Byte
  kind      : Byte
  selector  : Byte
  mask      : Fin 4
  action    : Action
  forward   : Bool
  deriving DecidableEq, Repr

/-- R127: four compare masks. -/
structure Mask where
  dest     : Byte
  source   : Byte
  kind     : Byte
  selector : Byte
  deriving DecidableEq, Repr

/-- R134: an entry of an intake queue. -/
structure IntakeEntry where
  frame : Frame
  stamp : Nat
  hit   : FilterIx
  deriving DecidableEq, Repr

/-- One intake queue with its overflow count (R132) and its last rejected filter (R135). -/
structure IntakeQueue where
  entries  : List IntakeEntry
  overflow : Nat
  rejected : Option FilterIx
  deriving DecidableEq, Repr

structure FilterUnit where
  filters    : Bank Filter 32
  masks      : Bank Mask 4
  management : IntakeQueue
  calendar   : IntakeQueue
  figures    : IntakeQueue
  bells      : IntakeQueue
  deriving DecidableEq, Repr

/-! ## Outbound queues (chapter 09) -/

/-- R140: an entry of OQ-STRIKE; the rest of its frame is settled at completion. -/
structure StrikeFrame where
  bell     : BellIx
  velocity : Nat
  fire     : Int
  deriving DecidableEq, Repr

/-- R140: an entry of OQ-MOTION. -/
structure PoseEntry where
  figure : FigIx
  frame  : Frame
  deriving DecidableEq, Repr

/-- R141: the priority levels, 0..3. -/
structure Levels where
  strike : Nat
  motion : Nat
  passDn : Nat
  report : Nat
  passUp : Nat
  deriving DecidableEq, Repr

inductive ReleaseMode where
  | free
  | polled
  deriving DecidableEq, Repr

structure Outbound where
  guard  : List Frame
  strike : List StrikeFrame
  motion : List PoseEntry
  passDn : List WireFrame
  report : List Frame
  passUp : List WireFrame
  levels : Levels
  mode   : ReleaseMode
  mark   : Nat
  deriving DecidableEq, Repr

/-! ## Table memory (chapter 10) -/

/-- A stored word: the data bits last written and the stored bits, of positions 0..38, that have been
disturbed since (R151, R154, assumption log 2). -/
structure StoredWord where
  data  : Word
  flips : BitVec 39
  deriving DecidableEq, Repr

/-- What an unlisted word reads as: zero with the check bits of zero data (R159). -/
def StoredWord.blank : StoredWord := ⟨0, 0⟩

inductive CaptureKind where
  | empty
  | corrected
  | uncorrectable
  deriving DecidableEq, Repr

/-- R155: on whose behalf a word is read. -/
inductive Reader where
  | barrel
  | path
  | record
  | calendar
  | management
  | verify
  deriving DecidableEq, Repr

/-- R157: the error capture record. -/
structure Capture where
  kind     : CaptureKind
  address  : Nat
  position : Option Nat
  reader   : Reader
  repeated : Bool
  deriving DecidableEq, Repr

/-- `words` lists the words that are not blank, addresses strictly rising. -/
structure Table where
  words     : List (Nat × StoredWord)
  capture   : Capture
  corrected : Nat
  deriving DecidableEq, Repr

/-! ## Wall clock, calendar and cue timers (chapter 01) -/

/-- R1: a date and time of day, to the millisecond. -/
structure DateTime where
  year   : Nat
  month  : Nat
  day    : Nat
  hour   : Nat
  minute : Nat
  second : Nat
  milli  : Nat
  deriving DecidableEq, Repr

inductive ClockState where
  | unset
  | set
  deriving DecidableEq, Repr

/-- R17, R18: a cue timer. -/
structure CueTimer where
  count          : Nat
  reload         : Nat
  run            : Bool
  stopAtOverflow : Bool
  binding        : Option (SlotIx × ShowIx)
  deriving DecidableEq, Repr

/-- R3, R10: the last-fired stamp is a time with seconds and milliseconds zero, or none. -/
structure CalendarUnit where
  clockState   : ClockState
  clock        : DateTime
  slew         : Int
  stamp        : Option DateTime
  timeRejected : Nat
  timers       : Bank CueTimer 8
  deriving DecidableEq, Repr

/-! ## Settings in force (R160, R161) -/

structure Settings where
  ownAddress    : Byte
  lineAllowance : Nat
  lateLimit     : Nat
  lookahead     : Nat
  reportTimeout : Nat
  catchUp       : Nat
  pendingExpiry : Nat
  deriving DecidableEq, Repr

/-! ## Show slots and ownership (chapter 02) -/

inductive SlotState where
  | idle
  | running
  | held
  deriving DecidableEq, Repr

inductive StartSource where
  | management
  | calendar
  | timer
  deriving DecidableEq, Repr

inductive RepeatMode where
  | once
  | hourCount
  | fixed
  deriving DecidableEq, Repr

/-- A figure item of a show entry. -/
structure FigureItem where
  figure : FigIx
  path   : Nat
  offset : Nat
  deriving DecidableEq, Repr

inductive Role where
  | item
  | twin
  deriving DecidableEq, Repr

/-- R80: the item of the owner's show that governs a figure, and in which role. -/
structure Drive where
  item : Fin 8
  role : Role
  deriving DecidableEq, Repr

/-- R25, R40: the show entry as read at the start, with the figures it lists and what governs each. -/
structure ShowCopy where
  duration   : Nat
  repeatMode : RepeatMode
  fixedCount : Nat
  gap        : Nat
  bells      : BitVec 48
  barrel     : Nat
  items      : List FigureItem
  figures    : List (FigIx × Drive)
  deriving DecidableEq, Repr

/-- R32: a start request that waits for its slot to become IDLE. -/
structure PendingStart where
  showIx   : ShowIx
  source  : StartSource
  rank    : Nat
  hour    : Option Nat
  trigger : Nat
  expiry  : Nat
  deriving DecidableEq, Repr

/-- R21: a slot record. Slot time and the current repetition are computed from the line origin and the
hold instant (R22, R23). -/
structure Slot where
  state   : SlotState
  showIx   : ShowIx
  source  : StartSource
  rank    : Nat
  reps    : Nat
  origin  : Nat
  hold    : Option Nat
  copy    : ShowCopy
  waiting : Option PendingStart
  deriving DecidableEq, Repr

/-! ## The barrel reader (chapter 03) -/

inductive ContextState where
  | idle
  | reading
  | done
  deriving DecidableEq, Repr

/-- R44: a barrel's header fields, clamped. -/
structure BarrelHeader where
  rows : Nat
  size : Nat
  steps : Nat
  stepLength : Nat
  span : Nat
  deriving DecidableEq, Repr

/-- R45: a slot's barrel reader context. -/
structure BarrelContext where
  state    : ContextState
  start    : Nat
  header   : BarrelHeader
  rowMap   : List Nat
  lastStep : Nat
  rep      : Nat
  step     : Nat
  deriving DecidableEq, Repr

/-! ## Striking the bells (chapter 04) -/

/-- An entry of the strike queue. -/
structure Strike where
  slot     : SlotIx
  bell     : BellIx
  velocity : Nat
  fire     : Int
  deriving DecidableEq, Repr

/-- R58: a bell's health; an OUT OF SERVICE bell carries its reason. -/
inductive Health where
  | inService
  | outFault
  | outManual
  deriving DecidableEq, Repr

/-- Heat 0..65535, the last released fire instant, and health. -/
structure BellState where
  heat     : Nat
  released : Option Int
  health   : Health
  deriving DecidableEq, Repr

structure Scheduler where
  queue : List Strike
  bells : Bank BellState 48
  deriving DecidableEq, Repr

/-! ## Figures in motion (chapter 05) -/

inductive FigureState where
  | idle
  | driven
  | homing
  | frozen
  | faulted
  deriving DecidableEq, Repr

inductive FaultReason where
  | none
  | stall
  | silent
  | endStop
  | table
  deriving DecidableEq, Repr

/-- R80: a live figure record. -/
structure LiveFigure where
  state       : FigureState
  owner       : Option SlotIx
  drive       : Option Drive
  setpoint    : Int
  reported    : Option Int
  reportStamp : Option Nat
  silence     : Option Nat
  stall       : Option Nat
  hold        : BitVec 8
  fault       : FaultReason
  lag         : Bool
  brake       : Option (Byte × Byte)
  deriving DecidableEq, Repr

/-! ## Guards, events and attention (chapter 06) -/

inductive GuardClass where
  | note
  | zoneFreeze
  | allStop
  deriving DecidableEq, Repr

/-- The configuration of a guard line. -/
structure GuardConfig where
  activeHigh : Bool
  cls        : GuardClass
  zones      : BitVec 8
  autoResume : Bool
  settleTime : Nat
  deriving DecidableEq, Repr

/-- A guard line: taken level (true for high), run of differing samples, changed bit, settle deadline. -/
structure GuardLine where
  taken   : Bool
  run     : Nat
  changed : Bool
  settle  : Option Nat
  config  : GuardConfig
  deriving DecidableEq, Repr

/-- `awaitingSample` is set from the end of a reset to the first sample after it (R102); `inputs` are the
levels last sampled at the eight inputs (assumption log 15). -/
structure GuardUnit where
  lines          : Bank GuardLine 8
  awaitingSample : Bool
  inputs         : BitVec 8
  deriving DecidableEq, Repr

inductive PinMode where
  | level
  | pulse
  deriving DecidableEq, Repr

structure PinState where
  mode     : PinMode
  pulseEnd : Option Nat
  deriving DecidableEq, Repr

/-- R108: the 32 event sources, each item of their state as a set of sources (member k is bit k), the two
pins and the attention sequence. -/
structure EventUnit where
  latches     : BitVec 32
  repeats     : BitVec 32
  enables     : BitVec 32
  routeFrame  : BitVec 32
  routeStop   : BitVec 32
  routeBeacon : BitVec 32
  stop        : PinState
  beacon      : PinState
  sequence    : Byte
  deriving DecidableEq, Repr

/-! ## Management (chapter 11) -/

inductive VerifyState where
  | none
  | inProgress
  | done
  | aborted
  deriving DecidableEq, Repr

inductive VerifyFault where
  | invalidPointer
  | bellAbove47
  | spanTooSmall
  | keyframeCount
  | keyframeTime
  | keyframePosition
  deriving DecidableEq, Repr

/-- R169: the verify result. -/
structure VerifyResult where
  state         : VerifyState
  showIx         : ShowIx
  valid         : Option Bool
  wordsRead     : Nat
  uncorrectable : Nat
  faults        : Nat
  first         : Option (VerifyFault × Nat)
  deriving DecidableEq, Repr

/-- R168: the next read of the verify sweep. -/
inductive SweepPosition where
  | entry (word : Nat)
  | header (word : Nat)
  | rowMap (word : Nat)
  | row (row word : Nat)
  | figure (item word : Nat)
  | pathHeader (item : Nat)
  | keyframe (item index : Nat)
  | finished
  deriving DecidableEq, Repr

/-- What the sweep remembers of the words it has read: those of the show entry and the barrel header
(none for one that was uncorrectable), whether every row map word read well, the soft limits of the item
at hand, the keyframe count of its path and the time of the keyframe before. -/
structure VerifySweep where
  position : SweepPosition
  entry    : List (Option Word)
  header   : List (Option Word)
  mapGood  : Bool
  limits   : Option (Int × Int)
  count    : Nat
  previous : Option Nat
  deriving DecidableEq, Repr

structure VerifyUnit where
  result : VerifyResult
  sweep  : VerifySweep
  deriving DecidableEq, Repr

/-- The counts of STATUS READ page 3 that no structure above holds, 16 bits each, stopping at 65535. -/
structure Counts where
  passDrop          : Nat
  brakeDrop         : Nat
  replyDrop         : Nat
  motionSkip        : Nat
  positionUnmatched : Nat
  shadowed          : Nat
  noSubstitute      : Nat
  merged            : Nat
  queueFull         : Nat
  late              : Nat
  degraded          : Nat
  hot               : Nat
  coilUnmatched     : Nat
  noBell            : Nat
  barrelError       : Nat
  recordError       : Nat
  deriving DecidableEq, Repr

/-! ## The whole part -/

/-- Everything the part holds. `resetMs` counts the milliseconds since the reset in progress began (R3)
and `resetHold` those since a SOFT RESET's transmitters finished (R126). `freeUsed` is the MODEL's own
field: how many free bytes have been drawn (assumption log 4). -/
structure Part where
  lineTime  : Nat
  phase     : Phase
  resetMs   : Nat
  resetHold : Nat
  up        : LinePort
  down      : LinePort
  filter    : FilterUnit
  out       : Outbound
  table     : Table
  cal       : CalendarUnit
  settings  : Settings
  slots     : Bank Slot 3
  contexts  : Bank BarrelContext 3
  bellOwner : Bank (Option SlotIx) 48
  figOwner  : Bank (Option SlotIx) 16
  strikes   : Scheduler
  figures   : Bank LiveFigure 16
  guard     : GuardUnit
  events    : EventUnit
  verify    : VerifyUnit
  counts    : Counts
  freeUsed  : Nat
  deriving DecidableEq, Repr

/-- The part and the commands that wait for it, first in, first out. -/
structure State where
  part    : Part
  pending : List Instr
  deriving DecidableEq, Repr

/-! ## Values after reset -/

/-- R125: both receivers in HUNT, both transmitters READY, every count 0. -/
def LinePort.initial : LinePort :=
  { rx := { state := .hunt, runOn := false, inBreak := false }
    tx := .ready
    counts := { received := 0, forwarded := 0, consumed := 0, dropped := 0, checkErrors := 0 } }

/-- R127: a filter whose contents are all zero. -/
def Filter.zero : Filter :=
  { enabled := false, direction := .up, dest := 0, self := false, source := 0, kind := 0, selector := 0
    mask := 0, action := .discard, forward := false }

/-- R128: the default of filter `i`. -/
def Filter.default (i : FilterIx) : Filter :=
  match i.val with
  | 0 => { Filter.zero with enabled := true, self := true, kind := Kind.request, action := .management }
  | 1 => { Filter.zero with enabled := true, self := true, kind := Kind.poll, action := .poll }
  | 2 => { Filter.zero with enabled := true, direction := .both, kind := Kind.time, mask := 1, action := .calendar, forward := true }
  | 3 => { Filter.zero with enabled := true, direction := .down, kind := Kind.position, mask := 1, action := .figures, forward := true }
  | 4 => { Filter.zero with enabled := true, direction := .down, kind := Kind.coil, mask := 1, action := .bells, forward := true }
  | _ => Filter.zero

/-- R128: the default of mask `m`. -/
def Mask.default (m : Fin 4) : Mask :=
  match m.val with
  | 0 => { dest := 0xFF, source := 0, kind := 0xFF, selector := 0 }
  | 1 => { dest := 0, source := 0, kind := 0xFF, selector := 0 }
  | _ => { dest := 0, source := 0, kind := 0, selector := 0 }

def IntakeQueue.initial : IntakeQueue := { entries := [], overflow := 0, rejected := none }

/-- R128. -/
def FilterUnit.initial : FilterUnit :=
  { filters := Vector.ofFn Filter.default
    masks := Vector.ofFn Mask.default
    management := IntakeQueue.initial
    calendar := IntakeQueue.initial
    figures := IntakeQueue.initial
    bells := IntakeQueue.initial }

/-- R141. -/
def Levels.initial : Levels := { strike := 3, motion := 2, passDn := 1, report := 2, passUp := 1 }

/-- R150: empty queues, the levels of R141, FREE mode, release mark 0. -/
def Outbound.initial : Outbound :=
  { guard := [], strike := [], motion := [], passDn := [], report := [], passUp := []
    levels := Levels.initial, mode := .free, mark := 0 }

/-- R157: the record at kind NONE; its other fields have no meaning (DESIGN CHOICE, assumption log 1). -/
def Capture.initial : Capture :=
  { kind := .empty, address := 0, position := none, reader := .barrel, repeated := false }

/-- R159: every word zero, the capture record NONE, the corrected-error count 0. -/
def Table.initial : Table := { words := [], capture := Capture.initial, corrected := 0 }

/-- R17. -/
def CueTimer.initial : CueTimer :=
  { count := 0, reload := 0, run := false, stopAtOverflow := false, binding := none }

/-- R3: 2000-01-01 00:00:00.000. -/
def DateTime.first : DateTime :=
  { year := 2000, month := 1, day := 1, hour := 0, minute := 0, second := 0, milli := 0 }

/-- R3, R17. -/
def CalendarUnit.initial : CalendarUnit :=
  { clockState := .unset, clock := DateTime.first, slew := 0, stamp := none, timeRejected := 0
    timers := Bank.const 8 CueTimer.initial }

/-- R160: the defaults of the configuration table. -/
def Settings.initial : Settings :=
  { ownAddress := 120, lineAllowance := 8, lateLimit := 5, lookahead := 400, reportTimeout := 500
    catchUp := 5, pendingExpiry := 10 }

/-- The fields of an IDLE slot's copy, which have no meaning (DESIGN CHOICE, assumption log 1). -/
def ShowCopy.initial : ShowCopy :=
  { duration := 1, repeatMode := .once, fixedCount := 1, gap := 0, bells := 0, barrel := 0
    items := [], figures := [] }

/-- R21: IDLE with no pending start; the other fields have no meaning (DESIGN CHOICE, assumption log 1). -/
def Slot.initial : Slot :=
  { state := .idle, showIx := 0, source := .management, rank := 0, reps := 1, origin := 0, hold := none
    copy := ShowCopy.initial, waiting := none }

/-- The empty header copy of an IDLE context (DESIGN CHOICE, assumption log 1). -/
def BarrelHeader.initial : BarrelHeader := { rows := 0, size := 1, steps := 0, stepLength := 10, span := 0 }

/-- R45. -/
def BarrelContext.initial : BarrelContext :=
  { state := .idle, start := 0, header := BarrelHeader.initial, rowMap := [], lastStep := 0, rep := 0, step := 0 }

/-- R78. -/
def BellState.initial : BellState := { heat := 0, released := none, health := .inService }

def Scheduler.initial : Scheduler := { queue := [], bells := Bank.const 48 BellState.initial }

/-- R80: the live record before the figure's record is read at the end of the reset. -/
def LiveFigure.initial : LiveFigure :=
  { state := .idle, owner := none, drive := none, setpoint := 0, reported := none, reportStamp := none
    silence := none, stall := none, hold := 0, fault := .none, lag := false, brake := none }

/-- R102 and the defaults of the guard configuration table. -/
def GuardConfig.initial : GuardConfig :=
  { activeHigh := false, cls := .note, zones := 0, autoResume := false, settleTime := 2000 }

/-- R102; the taken level before the first sample is high (DESIGN CHOICE, assumption log 1). -/
def GuardLine.initial : GuardLine :=
  { taken := true, run := 0, changed := false, settle := none, config := GuardConfig.initial }

/-- R102; the inputs stand high until a sample says otherwise (DESIGN CHOICE, assumption log 1). -/
def GuardUnit.initial : GuardUnit :=
  { lines := Bank.const 8 GuardLine.initial, awaitingSample := true, inputs := 0xFF }

def PinState.initial : PinState := { mode := .level, pulseEnd := none }

/-- R108, R109, R114: no source latched, every source enabled and routed to FRAME only, both pins in LEVEL
mode, the attention sequence 0. -/
def EventUnit.initial : EventUnit :=
  { latches := 0, repeats := 0, enables := 0xFFFFFFFF, routeFrame := 0xFFFFFFFF, routeStop := 0, routeBeacon := 0
    stop := PinState.initial, beacon := PinState.initial, sequence := 0 }

/-- R169: state NONE; the other fields are the model's (DESIGN CHOICE, assumption log 1). -/
def VerifyResult.initial : VerifyResult :=
  { state := .none, showIx := 0, valid := none, wordsRead := 0, uncorrectable := 0, faults := 0, first := none }

def VerifySweep.initial : VerifySweep :=
  { position := .finished, entry := [], header := [], mapGood := true, limits := none, count := 0, previous := none }

def VerifyUnit.initial : VerifyUnit := { result := VerifyResult.initial, sweep := VerifySweep.initial }

def Counts.initial : Counts :=
  { passDrop := 0, brakeDrop := 0, replyDrop := 0, motionSkip := 0, positionUnmatched := 0, shadowed := 0
    noSubstitute := 0, merged := 0, queueFull := 0, late := 0, degraded := 0, hot := 0, coilUnmatched := 0
    noBell := 0, barrelError := 0, recordError := 0 }

/-- The part as a power-on reset leaves it (R125, R126). -/
def Part.initial : Part :=
  { lineTime := 0, phase := .running, resetMs := 0, resetHold := 0
    up := LinePort.initial, down := LinePort.initial
    filter := FilterUnit.initial, out := Outbound.initial, table := Table.initial
    cal := CalendarUnit.initial, settings := Settings.initial
    slots := Bank.const 3 Slot.initial, contexts := Bank.const 3 BarrelContext.initial
    bellOwner := Bank.const 48 none, figOwner := Bank.const 16 none
    strikes := Scheduler.initial, figures := Bank.const 16 LiveFigure.initial
    guard := GuardUnit.initial, events := EventUnit.initial
    verify := VerifyUnit.initial, counts := Counts.initial, freeUsed := 0 }

/-- The machine right after a power-on reset, with no command waiting. -/
def State.reset : State := { part := Part.initial, pending := [] }

/-! ## The ways a step can stop -/

/-- Why the machine would stop with a fault. -/
inductive Fault where
  /-- An access to a table word above 16383, which R151 says does not exist. No meaning raises it: R26,
  R84, R152, R164 and R165 keep every access at or below word 16383. Safe. -/
  | absentTableWord (address : Nat)
  deriving DecidableEq, Repr

/-- Why a command would be refused. -/
inductive Refusal where
  /-- Raised by `exec` alone, for a command that has no meaning yet. No command is left so. Safe. -/
  | notModelled (mnemonic : String)
  deriving DecidableEq, Repr

end Sys2Proof.Machine
end

