-- ==== Sys2Proof/Machine/Operands.lean ====
section
/-! DEFINITION. Reading fields: bytes and halves of table words, sets as bit fields, every record's fields
clamped to their ranges, and the parameters of a request. Nothing here reads or changes the part. -/

namespace Sys2Proof.Machine

/-! ## Bytes, halves and sets (R171) -/

/-- Byte `k` of a table word; byte 0 is the most significant (00_scope, Byte order). -/
def byteAt (w : Word) (k : Nat) : Nat := w.toNat / 256 ^ (3 - k) % 256

/-- The two-byte field at bytes 2h and 2h + 1 of a table word. -/
def halfAt (w : Word) (h : Nat) : Nat := w.toNat / 65536 ^ (1 - h) % 65536

/-- A two-byte field taken as two's complement. -/
def signedHalf (n : Nat) : Int := if n < 32768 then (n : Int) else (n : Int) - 65536

/-- A byte taken as two's complement. -/
def signedByte (n : Nat) : Int := if n < 128 then (n : Int) else (n : Int) - 256

/-- The number of width `w` in two's complement that stands for `z`. -/
def twosComplement (w : Nat) (z : Int) : Nat := (BitVec.ofInt w z).toNat

/-- A number as `k` bytes, most significant first. -/
def bytesOf : Nat → Nat → List Byte
  | 0, _ => []
  | k + 1, n => BitVec.ofNat 8 (n / 256 ^ k) :: bytesOf k n

/-- A number from its bytes, most significant first. -/
def numberOf (bs : List Byte) : Nat := bs.foldl (fun n b => n * 256 + b.toNat) 0

/-- R171: the byte of a flag; a set flag is sent as 1. -/
def flagByte (b : Bool) : Byte := if b then 1 else 0

/-- Bit `k` of a byte made of flags. -/
def bitIf (b : Bool) (k : Nat) : Nat := if b then 2 ^ k else 0

/-- Member `k` of a set. -/
def member {n : Nat} (s : BitVec n) (k : Nat) : Bool := s.getLsbD k

/-- The set with member `k` put in. -/
def setMember {n : Nat} (s : BitVec n) (k : Nat) : BitVec n := s ||| BitVec.twoPow n k

/-- The set with member `k` taken out. -/
def dropMember {n : Nat} (s : BitVec n) (k : Nat) : BitVec n := s &&& ~~~ BitVec.twoPow n k

/-! ## Clamping (R156) -/

/-- The value in lo..hi nearest to `n`. -/
def clamp (lo hi n : Nat) : Nat := max lo (min hi n)

/-- The value in lo..hi nearest to `z`; lo when hi lies below lo. -/
def clampInt (lo hi z : Int) : Int := max lo (min hi z)

/-- The index `n`, or the last index when `n` lies beyond it. -/
def clampIx (n k : Nat) : Fin (n + 1) := ⟨min k n, Nat.lt_succ_of_le (Nat.min_le_right k n)⟩

/-- ceil(a / b). -/
def ceilDiv (a b : Nat) : Nat := (a + b - 1) / b

/-! ## Bell records (R57) -/

structure BellRecord where
  node        : Nat
  channel     : Nat
  flightBase  : Nat
  flightExtra : Nat
  pulseMin    : Nat
  pulseMax    : Nat
  recovery    : Nat
  unitHeat    : Nat
  coolShift   : Nat
  heatLimit   : Nat
  substitute  : Option BellIx
  subGain     : Nat
  deriving DecidableEq, Repr

/-- R57: the fields of a bell record's words, clamped. -/
def bellRecord (w : Nat → Word) : BellRecord :=
  let pulseMin := clamp 1 250 (byteAt (w 1) 0)
  { node := min (byteAt (w 0) 0) 126
    channel := min (byteAt (w 0) 1) 7
    flightBase := min (byteAt (w 0) 2) 100
    flightExtra := min (byteAt (w 0) 3) 100
    pulseMin := pulseMin
    pulseMax := clamp pulseMin 250 (byteAt (w 1) 1)
    recovery := clamp 10 2000 (halfAt (w 1) 1)
    unitHeat := clamp 1 15 (byteAt (w 2) 0)
    coolShift := clamp 3 10 (byteAt (w 2) 1)
    heatLimit := max 1 (halfAt (w 2) 1)
    substitute := if byteAt (w 3) 0 = 255 then none else some (clampIx 47 (byteAt (w 3) 0))
    subGain := clamp 25 100 (byteAt (w 3) 1) }

/-- The words of a bell record that each use takes (R155, assumption log 7). -/
def bellNodeWords : List Nat := [0]
def bellNoteWords : List Nat := [0, 1]
def bellSubstituteWords : List Nat := [3]
def bellCompletionWords : List Nat := [0, 1, 2]
def bellCoolingWords : List Nat := [2]
def bellScanWords (hot : Bool) : List Nat := if hot then [0, 2] else [0]

/-! ## Figure records (R81) -/

structure FigureRecord where
  node        : Nat
  channel     : Nat
  zone        : Nat
  twin        : Option FigIx
  mirror      : Bool
  home        : Int
  lower       : Int
  upper       : Int
  maxStep     : Nat
  followLimit : Nat
  stallTime   : Nat
  deriving DecidableEq, Repr

/-- R81: the fields of a figure record's words, clamped. -/
def figureRecord (w : Nat → Word) : FigureRecord :=
  let lower := signedHalf (halfAt (w 2) 0)
  { node := min (byteAt (w 0) 0) 126
    channel := min (byteAt (w 0) 1) 7
    zone := min (byteAt (w 0) 2) 7
    twin := if byteAt (w 0) 3 = 255 then none else some (clampIx 15 (byteAt (w 0) 3))
    mirror := byteAt (w 1) 0 ≠ 0
    home := signedHalf (halfAt (w 1) 1)
    lower := lower
    upper := max lower (signedHalf (halfAt (w 2) 1))
    maxStep := clamp 1 2000 (halfAt (w 3) 0)
    followLimit := clamp 1 5000 (halfAt (w 3) 1)
    stallTime := clamp 50 5000 (halfAt (w 4) 0) }

/-- A position taken inside the figure's soft limits. -/
def FigureRecord.limit (r : FigureRecord) (z : Int) : Int := clampInt r.lower r.upper z

/-- The words of a figure record that each use takes (R155, assumption log 7). All but the stall test of a report
take word 0, which holds the node and the channel. -/
def figureTwinWords : List Nat := [0]
def figureZoneWords : List Nat := [0]
def figureResetWords : List Nat := [0, 1]
def figureLimitWords : List Nat := [0, 2]
def figureMappingWords : List Nat := [0]
def figureStallWords : List Nat := [3, 4]
def figurePeriodWords (homeOrMirror : Bool) : List Nat := if homeOrMirror then [0, 1, 2, 3, 4] else [0, 2, 3, 4]

/-! ## Calendar entries (R14) -/

structure CalendarEntry where
  valid      : Bool
  startMonth : Nat
  startDay   : Nat
  endMonth   : Nat
  endDay     : Nat
  weekdays   : Nat
  minute     : Nat
  slot       : SlotIx
  hours      : Nat
  showIx     : ShowIx
  rank       : Nat
  deriving DecidableEq, Repr

/-- R14: the fields of a calendar entry's words, clamped. -/
def calendarEntry (w : Nat → Word) : CalendarEntry :=
  { valid := byteAt (w 0) 0 ≠ 0
    startMonth := clamp 1 12 (byteAt (w 0) 1)
    startDay := clamp 1 31 (byteAt (w 0) 2)
    endMonth := clamp 1 12 (byteAt (w 0) 3)
    endDay := clamp 1 31 (byteAt (w 1) 0)
    weekdays := byteAt (w 1) 1
    minute := min (byteAt (w 1) 2) 59
    slot := clampIx 2 (byteAt (w 1) 3)
    hours := (w 2).toNat / 256
    showIx := clampIx 31 (byteAt (w 2) 3)
    rank := min (byteAt (w 3) 0) 15 }

/-! ## Show entries (R25) -/

/-- Byte `b` of a show entry: byte b mod 4 of its word floor(b / 4). -/
def entryByte (w : Nat → Word) (b : Nat) : Nat := byteAt (w (b / 4)) (b % 4)

/-- The number in bytes b .. b + k − 1 of a show entry. -/
def entryNumber (w : Nat → Word) (b k : Nat) : Nat :=
  (List.range k).foldl (fun n i => n * 256 + entryByte w (b + i)) 0

/-- R25: the figure item count, read clamped. -/
def itemCount (w : Nat → Word) : Nat := min (entryByte w 3) 8

/-- Item `i` of a show entry. -/
def figureItem (w : Nat → Word) (i : Nat) : FigureItem :=
  { figure := clampIx 15 (entryByte w (20 + 5 * i))
    path := entryNumber w (21 + 5 * i) 2
    offset := entryNumber w (23 + 5 * i) 2 }

/-- R25: the repeat mode; a code beyond the three is read as FIXED. -/
def repeatModeOf : Nat → RepeatMode
  | 0 => .once
  | 1 => .hourCount
  | _ => .fixed

/-- R25: the fields of a show entry's words, clamped; the figure lists are resolved later (R40). -/
def showCopy (w : Nat → Word) : ShowCopy :=
  { duration := max 1 (entryNumber w 5 3)
    repeatMode := repeatModeOf (entryByte w 1)
    fixedCount := clamp 1 12 (entryByte w 2)
    gap := entryNumber w 10 2
    bells := BitVec.ofNat 48 (entryNumber w 12 6)
    barrel := entryNumber w 8 2
    items := (List.range (itemCount w)).map (figureItem w)
    figures := [] }

def showValid (w : Nat → Word) : Bool := entryByte w 0 ≠ 0

/-- The words of a show entry that hold the fields before the figure items, and those that hold `count`
figure items (R155, assumption log 7). -/
def entryHeadWords : List Nat := [0, 1, 2, 3, 4]
def entryItemWords (count : Nat) : List Nat :=
  (List.range 16).filter fun k => 5 ≤ k ∧ k * 4 < 20 + 5 * count

/-! ## Barrels (R44) and paths (R84) -/

/-- The least span: ceil(C × size / 4) words. -/
def leastSpan (steps size : Nat) : Nat := ceilDiv (steps * size) 4

/-- R44: a barrel's header, clamped. -/
def barrelHeader (w : Nat → Word) : BarrelHeader :=
  let size := clamp 1 2 (byteAt (w 0) 1)
  let steps := clamp 1 4096 (halfAt (w 0) 1)
  { rows := clamp 1 48 (byteAt (w 0) 0)
    size := size
    steps := steps
    stepLength := clamp 10 2000 (halfAt (w 1) 0)
    span := max (leastSpan steps size) (halfAt (w 1) 1) }

/-- The number of words the row map occupies. -/
def BarrelHeader.mapWords (h : BarrelHeader) : Nat := ceilDiv h.rows 4

/-- R44: the address of the barrel's last word. -/
def BarrelHeader.lastWord (h : BarrelHeader) (pointer : Nat) : Nat := pointer + 1 + h.mapWords + h.rows * h.span

/-- R44: the address at which row `k` begins. -/
def BarrelHeader.rowStart (h : BarrelHeader) (pointer k : Nat) : Nat := pointer + 2 + h.mapWords + k * h.span

/-- R44: the first `rows` bytes of the row map's words. -/
def rowMapOf (rows : Nat) (ws : List Word) : List Nat :=
  (ws.flatMap fun w => (List.range 4).map (byteAt w)).take rows

/-- R84: the keyframe count of a path header, clamped. -/
def keyframeCount (header : Word) : Nat := clamp 2 32 (byteAt header 0)

/-- R84: a keyframe word's time and position. -/
def keyframeOf (w : Word) : Nat × Int := (halfAt w 0, signedHalf (halfAt w 1))

/-- The lowest heap word and the last word of table memory (R151). -/
def heapStart : Nat := 1152
def lastTableWord : Nat := 16383

/-- R152: a pointer that names a word of the heap. -/
def inHeap (pointer : Nat) : Bool := heapStart ≤ pointer ∧ pointer ≤ lastTableWord

/-! ## Requests (R162, 12_frame_and_record_layouts) -/

/-- The request codes of the request table, and the payload length each request has (TABLE WRITE and
TIMER CONTROL are taken apart by their own steps). -/
inductive Request where
  | tableWrite | tableRead | applyConfig | filterWrite | maskWrite | filterEnable | filterRead | showStart
  | showStop | showHold | showResume | verifyShow | figureRelease | bellService | timerControl | eventRead
  | eventClear | guardRead | statusRead | errorRead | queueFlush | softReset
  deriving DecidableEq, Repr

def Request.ofCode : Nat → Option Request
  | 1 => some .tableWrite
  | 2 => some .tableRead
  | 3 => some .applyConfig
  | 4 => some .filterWrite
  | 5 => some .maskWrite
  | 6 => some .filterEnable
  | 7 => some .filterRead
  | 8 => some .showStart
  | 9 => some .showStop
  | 10 => some .showHold
  | 11 => some .showResume
  | 12 => some .verifyShow
  | 13 => some .figureRelease
  | 14 => some .bellService
  | 15 => some .timerControl
  | 16 => some .eventRead
  | 17 => some .eventClear
  | 18 => some .guardRead
  | 19 => some .statusRead
  | 20 => some .errorRead
  | 21 => some .queueFlush
  | 22 => some .softReset
  | _ => none

/-- Whether a payload of `n` bytes suits the request. -/
def Request.lengthSuits (r : Request) (n : Nat) : Bool :=
  match r with
  | .tableWrite => n % 4 = 3 ∧ 7 ≤ n ∧ n ≤ 31
  | .tableRead => n = 4
  | .applyConfig => n = 1
  | .filterWrite => n = 11
  | .maskWrite => n = 6
  | .filterEnable => n = 3
  | .filterRead => n = 2
  | .showStart => n = 4
  | .showStop => n = 3
  | .showHold => n = 2
  | .showResume => n = 2
  | .verifyShow => n = 2
  | .figureRelease => n = 3
  | .bellService => n = 3
  | .timerControl => n = 6
  | .eventRead => n = 1
  | .eventClear => n = 5
  | .guardRead => n = 1
  | .statusRead => n = 4
  | .errorRead => n = 2
  | .queueFlush => n = 2
  | .softReset => n = 1

/-- The result codes (R162). -/
inductive Result where
  | done | clamped | busy | range | state | enabled | table | unknown | length
  deriving DecidableEq, Repr

def Result.code : Result → Byte
  | .done => 0
  | .clamped => 1
  | .busy => 2
  | .range => 3
  | .state => 4
  | .enabled => 5
  | .table => 6
  | .unknown => 7
  | .length => 8

/-- An index parameter, when it lies below `n`. -/
def index? (n k : Nat) : Option (Fin n) := if h : k < n then some ⟨k, h⟩ else none

end Sys2Proof.Machine

namespace Sys2Proof

/-- Payload byte `k` of a frame, as a number. -/
def Frame.arg (f : Frame) (k : Nat) : Nat := (f.payload.getD k 0).toNat

/-- The number in payload bytes k .. k + n − 1 of a frame. -/
def Frame.number (f : Frame) (k n : Nat) : Nat := Machine.numberOf ((f.payload.drop k).take n)

/-- The request a frame carries, when it is a REQUEST whose code names one. -/
def Frame.request (f : Frame) : Option Machine.Request :=
  if f.kind = Kind.request then f.payload.head?.bind fun c => Machine.Request.ofCode c.toNat else none

end Sys2Proof
end

