-- ==== Sys2Proof/Machine/Flags.lean ====
section
/-! DEFINITION. The status flags of the part: the counts of STATUS READ page 3, the event latches with the
ATTENTION frames they raise, and the two output pins. -/

namespace Sys2Proof.Machine

/-- 00_scope, Counters: a count goes up by one and stops at 65535. -/
def bump (n : Nat) : Nat := min (n + 1) 65535

/-! ## OQ-REPORT -/

/-- R140: the capacity of OQ-REPORT. -/
def reportCapacity : Nat := 16

/-- R140, R109, R137, R163: a frame is appended to OQ-REPORT, or lost with the reply-drop count. -/
def appendReport (f : Frame) (p : Part) : Part :=
  if p.out.report.length < reportCapacity then
    { p with out := { p.out with report := p.out.report ++ [f] } }
  else
    { p with counts := { p.counts with replyDrop := bump p.counts.replyDrop } }

/-! ## Guard lines asserted -/

/-- R101: a line is asserted while its taken level equals its active level. -/
def GuardLine.asserted (l : GuardLine) : Bool := l.taken == l.config.activeHigh

/-- An ALL-STOP line that is asserted. -/
def GuardLine.stops (l : GuardLine) : Bool := l.asserted && l.config.cls == .allStop

/-- R38: some ALL-STOP line is asserted. -/
def allStopAsserted (p : Part) : Bool := p.guard.lines.toList.any GuardLine.stops

/-! ## Event latches and attention (R108, R109) -/

/-- The sources that an ATTENTION frame lists: latched, enabled and routed to FRAME. -/
def EventUnit.listed (e : EventUnit) : BitVec 32 := e.latches &&& e.enables &&& e.routeFrame

/-- R109: the ATTENTION frame that would be raised now. -/
def attentionFrame (p : Part) : Frame :=
  { dest := 0
    source := p.settings.ownAddress
    kind := Kind.attention
    tag := p.events.sequence
    payload := bytesOf 4 p.events.listed.toNat ++ bytesOf 4 (p.events.repeats &&& p.events.listed).toNat }

/-- R109: an ATTENTION frame is raised; the sequence advances whether or not the frame finds room. -/
def raiseAttention (p : Part) : Part :=
  let q := appendReport (attentionFrame p) p
  { q with events := { q.events with sequence := q.events.sequence + 1 } }

/-- R111: the length of a pulse. -/
def pulseLength : Nat := 50

/-- R108, R111: a cause at an enabled source routed to a pin in PULSE mode starts the pulse afresh. -/
def PinState.caused (pin : PinState) (reached : Bool) (now : Nat) : PinState :=
  if reached && pin.mode == .pulse then { pin with pulseEnd := some (now + pulseLength) } else pin

/-- R108, R111: both pins meet a cause of source `k`. -/
def causePins (k : Nat) (p : Part) : Part :=
  { p with events := { p.events with
      stop := p.events.stop.caused (member p.events.enables k && member p.events.routeStop k) p.lineTime
      beacon := p.events.beacon.caused (member p.events.enables k && member p.events.routeBeacon k) p.lineTime } }

/-- R108: a block reports the cause of source `k`. -/
def latchEvent (k : Nat) (p : Part) : Part :=
  if member p.events.latches k then
    causePins k { p with events := { p.events with repeats := setMember p.events.repeats k } }
  else
    let q := { p with events := { p.events with latches := setMember p.events.latches k } }
    causePins k (if member q.events.enables k && member q.events.routeFrame k then raiseAttention q else q)

/-- The event sources by name (R108). -/
def Source.guardLine (n : LineIx) : Nat := n.val
def Source.timer (t : TimerIx) : Nat := 8 + t.val
def Source.figureFault : Nat := 16
def Source.bellOut : Nat := 17
def Source.uncorrectable : Nat := 18
def Source.corrected : Nat := 19
def Source.clockSet : Nat := 20
def Source.clockStepped : Nat := 21
def Source.showStarted : Nat := 22
def Source.showEnded : Nat := 23
def Source.startLost : Nat := 24
def Source.verifyDone : Nat := 25
def Source.strikeDropped : Nat := 26
def Source.intakeOverflow : Nat := 27
def Source.passDrop : Nat := 28
def Source.downlineBreak : Nat := 29
def Source.figureLag : Nat := 30
def Source.resetOccurred : Nat := 31

/-! ## STOP and BEACON (R110, R111, R114) -/

/-- A pin judged by its mode: a LEVEL pin by the enabled, latched sources routed to it, a PULSE pin by its
pulse. -/
def PinState.driven (pin : PinState) (e : EventUnit) (route : BitVec 32) : Bool :=
  match pin.mode with
  | .level => e.latches &&& e.enables &&& route ≠ 0
  | .pulse => pin.pulseEnd.isSome

/-- Whether STOP is active (R105, R110, R111, R114). -/
def stopActive (p : Part) : Bool :=
  p.phase ≠ .running || allStopAsserted p || p.events.stop.driven p.events p.events.routeStop

/-- Whether BEACON is active (R110, R111, R114). -/
def beaconActive (p : Part) : Bool :=
  p.phase = .running && p.events.beacon.driven p.events p.events.routeBeacon

/-! ## Free bytes -/

/-- The next free byte (assumption log 4). -/
def drawByte (p : Part) : Byte × Part := (Config.freeByte p.freeUsed, { p with freeUsed := p.freeUsed + 1 })

/-- The next `n` free bytes. -/
def drawBytes : Nat → Part → List Byte × Part
  | 0, p => ([], p)
  | n + 1, p =>
    let b := drawByte p
    let bs := drawBytes n b.2
    (b.1 :: bs.1, bs.2)

end Sys2Proof.Machine
end

