-- ==== Sys2Proof/Machine/Ops.lean ====
section
/-! DEFINITION. The named operations over table memory, the outbound queues, the intake queues and the
banks of records, and the taking and answering of a request. -/

namespace Sys2Proof.Machine

/-! ## Running a command -/

/-- The outcome of a command that always takes a next state: the part changed by `f`. -/
def State.run (s : State) (f : Part → Part) : Host.Outcome State Fault Refusal :=
  .next { s with part := f s.part }

/-- R126: while the part is in reset its blocks take no events. -/
def whenRunning (f : Part → Part) (p : Part) : Part := if p.phase = .running then f p else p

/-! ## Banks of records -/

def setSlot (i : SlotIx) (f : Slot → Slot) (p : Part) : Part := { p with slots := p.slots.update i f }
def setContext (i : SlotIx) (f : BarrelContext → BarrelContext) (p : Part) : Part :=
  { p with contexts := p.contexts.update i f }
def setFigure (k : FigIx) (f : LiveFigure → LiveFigure) (p : Part) : Part :=
  { p with figures := p.figures.update k f }
def setBell (b : BellIx) (f : BellState → BellState) (p : Part) : Part :=
  { p with strikes := { p.strikes with bells := p.strikes.bells.update b f } }
def setLine (n : LineIx) (f : GuardLine → GuardLine) (p : Part) : Part :=
  { p with guard := { p.guard with lines := p.guard.lines.update n f } }
def setTimer (t : TimerIx) (f : CueTimer → CueTimer) (p : Part) : Part :=
  { p with cal := { p.cal with timers := p.cal.timers.update t f } }
def setCounts (f : Counts → Counts) (p : Part) : Part := { p with counts := f p.counts }
def setOut (f : Outbound → Outbound) (p : Part) : Part := { p with out := f p.out }
def setQueue (q : List Strike) (p : Part) : Part := { p with strikes := { p.strikes with queue := q } }

def allSlots : List SlotIx := [0, 1, 2]
def allLines : List LineIx := List.finRange 8
def allTimers : List TimerIx := List.finRange 8
def allFigures : List FigIx := List.finRange 16
def allBells : List BellIx := List.finRange 48

/-! ## The words of table memory (R151) -/

/-- The stored word at an address; an unlisted word is blank. -/
def wordAt : List (Nat × StoredWord) → Nat → StoredWord
  | [], _ => StoredWord.blank
  | (b, w) :: rest, a => if a = b then w else wordAt rest a

/-- The list with the word at `a` replaced: addresses rising, no blank word listed. -/
def putWord (a : Nat) (w : StoredWord) : List (Nat × StoredWord) → List (Nat × StoredWord)
  | [] => if w = StoredWord.blank then [] else [(a, w)]
  | (b, v) :: rest =>
    if a < b then (if w = StoredWord.blank then (b, v) :: rest else (a, w) :: (b, v) :: rest)
    else if a = b then (if w = StoredWord.blank then rest else (a, w) :: rest)
    else (b, v) :: putWord a w rest

/-- Addresses rising from `least`, all within table memory, and no blank word listed. -/
def wordsFrom : Nat → List (Nat × StoredWord) → Bool
  | _, [] => true
  | least, (a, w) :: rest => least ≤ a && a ≤ lastTableWord && w ≠ StoredWord.blank && wordsFrom (a + 1) rest

/-- The canonical form of table memory. -/
def Table.wf (t : Table) : Bool := wordsFrom 0 t.words

/-! ## Judging a read (R154) -/

/-- The positions of the stored bits that are disturbed. -/
def StoredWord.disturbed (w : StoredWord) : List (Fin 39) := (List.finRange 39).filter fun i => w.flips.getLsbD i.val

/-- R154: what the 39 stored bits show. -/
def StoredWord.judged (w : StoredWord) : Judged :=
  match w.disturbed with
  | [] => .clean
  | [i] => .corrected i
  | [_, _] => .uncorrectable
  | _ => Config.manyBitsJudged w.data w.flips

/-- The data bits as they are stored, disturbed ones included. -/
def StoredWord.storedData (w : StoredWord) : Word := w.data ^^^ w.flips.setWidth 32

/-- The data bits with the bit at `i` put right, when it is a data bit. -/
def StoredWord.putRight (w : StoredWord) (i : Fin 39) : Word :=
  if i.val < 32 then w.storedData ^^^ BitVec.twoPow 32 i.val else w.storedData

/-! ## The error capture record (R157) -/

def offerCorrected (rd : Reader) (a : Nat) (i : Fin 39) (p : Part) : Part :=
  match p.table.capture.kind with
  | .empty =>
    latchEvent Source.corrected { p with table := { p.table with
      capture := { kind := .corrected, address := a, position := some i.val, reader := rd, repeated := false } } }
  | .corrected => p
  | .uncorrectable => p

def offerUncorrectable (rd : Reader) (a : Nat) (p : Part) : Part :=
  let captured := { kind := CaptureKind.uncorrectable, address := a, position := none, reader := rd, repeated := false }
  latchEvent Source.uncorrectable (match p.table.capture.kind with
    | .empty => { p with table := { p.table with capture := captured } }
    | .corrected => { p with table := { p.table with capture := captured } }
    | .uncorrectable => { p with table := { p.table with capture := { p.table.capture with repeated := true } } })

def countCorrected (p : Part) : Part := { p with table := { p.table with corrected := bump p.table.corrected } }

/-! ## Reading and writing words (R153 to R155) -/

/-- R154: one read of a word for a reader: its data bits, or none when it is uncorrectable, and the part
after the read has been counted and offered. A word beyond the memory has no data bits. -/
def readWord (rd : Reader) (a : Nat) (p : Part) : Option Word × Part :=
  if lastTableWord < a then (none, p) else
  let w := wordAt p.table.words a
  match w.judged with
  | .clean => (some w.storedData, p)
  | .corrected i => (some (w.putRight i), offerCorrected rd a i (countCorrected p))
  | .uncorrectable => (none, offerUncorrectable rd a p)

/-- The reads of several words, in the order given, each with its own outcome. -/
def readEach (rd : Reader) : List Nat → Part → List (Option Word) × Part
  | [], p => ([], p)
  | a :: rest, p =>
    let r := readWord rd a p
    let rs := readEach rd rest r.2
    (r.1 :: rs.1, rs.2)

/-- All the values, when none is missing. -/
def allOf : List (Option Word) → Option (List Word)
  | [] => some []
  | none :: _ => none
  | some w :: rest => (allOf rest).map (w :: ·)

/-- R155: the words of a record that one use takes, read once each in address order. The answer gives the
word at each offset read (zero at an offset not read), or none when a word was uncorrectable. -/
def readRecord (rd : Reader) (base : Nat) (offsets : List Nat) (p : Part) : Option (Nat → Word) × Part :=
  let r := readEach rd (offsets.map (base + ·)) p
  ((allOf r.1).map fun ws k => ((offsets.zip ws).lookup k).getD 0, r.2)

/-- R153: the words at consecutive addresses take new data bits and fresh check bits. -/
def writeWords : Nat → List Word → List (Nat × StoredWord) → List (Nat × StoredWord)
  | _, [], t => t
  | a, w :: ws, t => writeWords (a + 1) ws (putWord a { data := w, flips := 0 } t)

/-! ## Records (R57, R81) -/

def bellBase (b : BellIx) : Nat := 64 + 4 * b.val
def figureBase (k : FigIx) : Nat := 256 + 8 * k.val
def calendarBase (e : Nat) : Nat := 384 + 4 * e
def showBase (s : ShowIx) : Nat := 640 + 16 * s.val

/-- R57: a read of a bell record; an uncorrectable one counts a record error. -/
def readBell (b : BellIx) (offsets : List Nat) (p : Part) : Option BellRecord × Part :=
  let r := readRecord .record (bellBase b) offsets p
  match r.1 with
  | some w => (some (bellRecord w), r.2)
  | none => (none, setCounts (fun c => { c with recordError := bump c.recordError }) r.2)

/-- R81: the brake address that a record gives a figure: its node and channel, when the node is 1..126. -/
def LiveFigure.braked (g : LiveFigure) (r : FigureRecord) : LiveFigure :=
  if r.node = 0 then g else { g with brake := some (BitVec.ofNat 8 r.node, BitVec.ofNat 8 r.channel) }

/-- R81: a read of a figure record, by the planner, the slot controller or the guard unit. A good read sets the
brake address; one that does not take word 0 gives no node and leaves it. -/
def readFigure (k : FigIx) (offsets : List Nat) (p : Part) : Option FigureRecord × Part :=
  let r := readRecord .record (figureBase k) offsets p
  match r.1.map figureRecord with
  | some rec => (some rec, setFigure k (·.braked rec) r.2)
  | none => (none, r.2)

/-! ## Slot time (R22, R23) -/

/-- R29: a slot that is RUNNING or HELD. -/
def Slot.busy (r : Slot) : Bool := r.state ≠ .idle

/-- R22: slot time T. While HELD it is the time at which the hold began. -/
def Slot.time (r : Slot) (now : Nat) : Nat :=
  match r.state with
  | .idle => 0
  | .running => now - r.origin
  | .held => r.hold.getD now - r.origin

/-- D + G. -/
def ShowCopy.period (c : ShowCopy) : Nat := c.duration + c.gap

/-- R23: the current repetition r. -/
def Slot.rep (r : Slot) (now : Nat) : Nat := min (r.time now / r.copy.period) (r.reps - 1)

/-- R23: the end instant E. -/
def Slot.endInstant (r : Slot) : Nat := (r.reps - 1) * r.copy.period + r.copy.duration

/-! ## OQ-GUARD -/

/-- R140: the capacity of OQ-GUARD. -/
def guardCapacity : Nat := 16

/-- R104: a BRAKE frame is appended to OQ-GUARD, or lost with the brake-drop count. No rule gives the frame
a tag: it is a free byte. -/
def appendBrake (dest channel : Byte) (p : Part) : Part :=
  if p.out.guard.length < guardCapacity then
    let t := drawByte p
    let f : Frame := { dest := dest, source := p.settings.ownAddress, kind := Kind.brake, tag := t.1, payload := [channel] }
    setOut (fun o => { o with guard := o.guard ++ [f] }) t.2
  else
    setCounts (fun c => { c with brakeDrop := bump c.brakeDrop }) p

/-! ## The check (R117) -/

/-- One character added to the check register. -/
def crcStep (r : BitVec 16) (b : Byte) : BitVec 16 :=
  (List.range 8).foldl (fun c _ => if c.msb then (c <<< 1) ^^^ 0x1021 else c <<< 1) (r ^^^ (b.setWidth 16 <<< 8))

/-- The check over a list of characters. -/
def crc (bs : List Byte) : BitVec 16 := bs.foldl crcStep 0xFFFF

/-- The characters of a frame that its check covers, header first. -/
def frameCharacters (f : Frame) : List Byte :=
  [f.dest, f.source, f.kind, f.tag, BitVec.ofNat 8 f.payload.length] ++ f.payload

def frameCheck (f : Frame) : BitVec 16 := crc (frameCharacters f)

/-! ## Taking and answering a request (R162, R163) -/

def setManagement (q : List IntakeEntry) (p : Part) : Part :=
  { p with filter := { p.filter with management := { p.filter.management with entries := q } } }

/-- R163: the reply to a request, addressed to its source, carrying its tag. -/
def replyFrame (e : IntakeEntry) (code : Byte) (result : Result) (data : List Byte) (p : Part) : Frame :=
  { dest := e.frame.source, source := p.settings.ownAddress, kind := Kind.reply, tag := e.frame.tag
    payload := code :: result.code :: data }

/-- R163: the reply is appended to OQ-REPORT. -/
def answer (e : IntakeEntry) (result : Result) (data : List Byte) (p : Part) : Part :=
  appendReport (replyFrame e (e.frame.payload.headD 0) result data p) p

/-- R162: the management unit takes the entry at the head of its queue when `takes` holds of it, and
carries `body` out with it. -/
def takeManagement (takes : Frame → Bool) (body : IntakeEntry → Part → Part) (p : Part) : Part :=
  match p.filter.management.entries with
  | [] => p
  | e :: rest => if takes e.frame then body e (setManagement rest p) else p

/-- R162, cases 3 to 5: a request of the given name is taken; a payload of a wrong length is answered
LENGTH and changes nothing, and otherwise `body` judges the request. -/
def onRequest (r : Request) (body : IntakeEntry → Part → Part) (p : Part) : Part :=
  takeManagement (fun f => f.request = some r)
    (fun e q => if r.lengthSuits e.frame.payload.length then body e q else answer e .length [] q) p

end Sys2Proof.Machine
end

