-- ==== Sys2Proof/Machine/Strikes.lean ====
section
/-! DEFINITION. The strike scheduler (chapter 04): from note to strike-queue entry, release into OQ-STRIKE,
completion at transmit start, cooling, coil reports and bell service. -/

namespace Sys2Proof.Machine

/-! ## Stage 4: release (R65) -/

/-- R140: the capacity of OQ-STRIKE; R64: that of the strike queue. -/
def strikeFrameCapacity : Nat := 16
def strikeQueueCapacity : Nat := 64

/-- R65: line time has reached f − L. -/
def Strike.due (e : Strike) (p : Part) : Bool := e.fire - (p.settings.lineAllowance : Int) ≤ (p.lineTime : Int)

/-- R65: the head of the strike queue leaves for OQ-STRIKE, and its bell's last released fire instant is
set. -/
def releaseStrike (e : Strike) (rest : List Strike) (p : Part) : Part :=
  setBell e.bell (fun b => { b with released := some e.fire })
    (setOut (fun o => { o with strike := o.strike ++ [{ bell := e.bell, velocity := e.velocity, fire := e.fire }] })
      (setQueue rest p))

/-- R65: due head entries are released while OQ-STRIKE has room; after each the new head is tested at
once. `fuel` bounds the releases by the entries there are. -/
def releaseLoop : Nat → Part → Part
  | 0, p => p
  | fuel + 1, p =>
    match p.strikes.queue with
    | [] => p
    | e :: rest =>
      if e.due p && p.out.strike.length < strikeFrameCapacity then releaseLoop fuel (releaseStrike e rest p) else p

/-- R65: the test of the strike queue's head, made whenever something can make it true. -/
def releaseDue (p : Part) : Part := releaseLoop p.strikes.queue.length p

/-! ## Stages 1 to 3 (R59 to R64) -/

/-- R61: the flight time F(v). -/
def BellRecord.flight (r : BellRecord) (v : Nat) : Nat := r.flightBase + r.flightExtra * (127 - v) / 127

/-- R60: the velocity of a redirected note. -/
def BellRecord.softened (r : BellRecord) (v : Nat) : Nat := max 1 (v * r.subGain / 100)

/-- R63: an entry of bell `b` within `recovery` of fire instant `f`. -/
def Strike.near (e : Strike) (b : BellIx) (recovery : Nat) (f : Int) : Bool :=
  e.bell = b && (e.fire - f).natAbs < recovery

/-- R63: the first entry near the note takes the larger velocity. -/
def raiseFirst (b : BellIx) (recovery : Nat) (f : Int) (v : Nat) : List Strike → List Strike
  | [] => []
  | e :: rest =>
    if e.near b recovery f then { e with velocity := max e.velocity v } :: rest
    else e :: raiseFirst b recovery f v rest

/-- R64: insertion after every entry whose fire instant is at or before the new one's. -/
def insertStrike (n : Strike) : List Strike → List Strike
  | [] => [n]
  | e :: rest => if e.fire ≤ n.fire then e :: insertStrike n rest else n :: e :: rest

/-- R62: the note falls within the recovery of the bell's released strike. -/
def BellState.recovering (b : BellState) (recovery : Nat) (f : Int) : Bool :=
  match b.released with
  | none => false
  | some l => f - l < (recovery : Int)

/-- R65: an entry of fire instant `f` becomes the head of this queue when it is inserted. -/
def becomesHead (f : Int) (q : List Strike) : Bool := q.head?.all fun e => f < e.fire

/-- R64, R65: the entry is inserted, and tested for release when it becomes the head. -/
def enqueueStrike (n : Strike) (p : Part) : Part :=
  let q := setQueue (insertStrike n p.strikes.queue) p
  if becomesHead n.fire p.strikes.queue then releaseDue q else q

/-- Stages 2 and 3 (R61 to R64) for a note of slot `s` for bell `b` at line time `n`. -/
def placeNote (s : SlotIx) (b : BellIx) (rec : BellRecord) (v n : Nat) (p : Part) : Part :=
  let f : Int := (n : Int) - (rec.flight v : Int)
  if (p.strikes.bells.read b).recovering rec.recovery f then
    setCounts (fun c => { c with merged := bump c.merged }) p
  else if p.strikes.queue.any (·.near b rec.recovery f) then
    setCounts (fun c => { c with merged := bump c.merged })
      (setQueue (raiseFirst b rec.recovery f v p.strikes.queue) p)
  else if strikeQueueCapacity ≤ p.strikes.queue.length then
    latchEvent Source.strikeDropped (setCounts (fun c => { c with queueFull := bump c.queueFull }) p)
  else
    enqueueStrike { slot := s, bell := b, velocity := v, fire := f } p

def dropNoSubstitute (p : Part) : Part := setCounts (fun c => { c with noSubstitute := bump c.noSubstitute }) p

/-- R60: a note for an OUT OF SERVICE bell, whose record is `rec`, is redirected to its substitute. The
conditions are tested in the order the rule gives them (assumption log 8). -/
def substituteNote (s : SlotIx) (rec : BellRecord) (v n : Nat) (p : Part) : Part :=
  match rec.substitute with
  | none => dropNoSubstitute p
  | some t =>
    if (p.strikes.bells.read t).health ≠ .inService || p.bellOwner.read t ≠ some s then dropNoSubstitute p
    else
      let r := readBell t bellNoteWords p
      match r.1 with
      | none => dropNoSubstitute r.2
      | some rt => if rt.node = 0 then dropNoSubstitute r.2 else placeNote s t rt (rec.softened v) n r.2

/-- R53, R59: a note of slot `s` for bell `b`, with velocity `v` and slot time `instant`, handed to the
scheduler. -/
def handNote (s : SlotIx) (b : BellIx) (v instant : Nat) (p : Part) : Part :=
  if p.bellOwner.read b ≠ some s then setCounts (fun c => { c with shadowed := bump c.shadowed }) p
  else
    let n := (p.slots.read s).origin + instant
    match (p.strikes.bells.read b).health with
    | .inService =>
      let r := readBell b bellNoteWords p
      match r.1 with
      | none => r.2
      | some rec => placeNote s b rec v n r.2
    | .outFault | .outManual =>
      let r := readBell b bellSubstituteWords p
      match r.1 with
      | none => r.2
      | some rec => substituteNote s rec v n r.2

/-! ## Stage 5: completion (R66 to R70) -/

/-- R68: the nominal width W(v). -/
def BellRecord.width (r : BellRecord) (v : Nat) : Nat := r.pulseMin + ((r.pulseMax - r.pulseMin) * v + 63) / 127

/-- R69: the degraded width W'. -/
def BellRecord.degradedWidth (r : BellRecord) (h : Nat) : Nat := if h < r.heatLimit then (r.heatLimit - h) / r.unitHeat else 0

/-- R67: the delay the node is to wait. -/
def strikeDelay (f : Int) (now : Nat) : Nat := min (f - (now : Int)).toNat 255

/-- R70: the HAMMER frame that is sent. No rule gives it a tag: it is a free byte. -/
def hammerFrame (e : StrikeFrame) (rec : BellRecord) (width : Nat) (tag : Byte) (p : Part) : Frame :=
  { dest := BitVec.ofNat 8 rec.node
    source := p.settings.ownAddress
    kind := Kind.hammer
    tag := tag
    payload := [BitVec.ofNat 8 rec.channel, BitVec.ofNat 8 (strikeDelay e.fire p.lineTime), BitVec.ofNat 8 width,
      BitVec.ofNat 8 e.velocity, BitVec.ofNat 8 e.bell.val] }

/-- R69: the frame is sent at a width and its heat charged. -/
def sendStrike (e : StrikeFrame) (rec : BellRecord) (width : Nat) (p : Part) : Option Frame × Part :=
  let t := drawByte p
  (some (hammerFrame e rec width t.1 t.2),
    setBell e.bell (fun b => { b with heat := b.heat + width * rec.unitHeat }) t.2)

/-- R69: the width and the heat. -/
def chargeStrike (e : StrikeFrame) (rec : BellRecord) (p : Part) : Option Frame × Part :=
  let h := (p.strikes.bells.read e.bell).heat
  if h + rec.width e.velocity * rec.unitHeat ≤ rec.heatLimit then sendStrike e rec (rec.width e.velocity) p
  else if rec.pulseMin ≤ rec.degradedWidth h then
    sendStrike e rec (rec.degradedWidth h) (setCounts (fun c => { c with degraded := bump c.degraded }) p)
  else
    (none, latchEvent Source.strikeDropped (setCounts (fun c => { c with hot := bump c.hot }) p))

/-- R66: the completion of a HAMMER frame taken from OQ-STRIKE: the frame to send, or none when it is
discarded late, withheld hot or dropped for its record. The late test precedes the test of the node, and the test of the
node that of the heat, for which the rules name no order (DESIGN CHOICE, assumption log 8). -/
def completeStrike (e : StrikeFrame) (p : Part) : Option Frame × Part :=
  let r := readBell e.bell bellCompletionWords p
  match r.1 with
  | none => (none, r.2)
  | some rec =>
    if e.fire + (p.settings.lateLimit : Int) < (p.lineTime : Int) then
      (none, latchEvent Source.strikeDropped (setCounts (fun c => { c with late := bump c.late }) r.2))
    else if rec.node = 0 then (none, setCounts (fun c => { c with noBell := bump c.noBell }) r.2)
    else chargeStrike e rec r.2

/-! ## Withdrawals (R72 to R74) -/

/-- R65, R72, R73: the entries of which `gone` holds leave the strike queue, and when the head was one of them
the new head is tested for release. A head that stays is not tested. -/
def removeStrikes (gone : Strike → Bool) (p : Part) : Part :=
  let q := setQueue (p.strikes.queue.filter fun e => !gone e) p
  if p.strikes.queue.head?.any gone then releaseDue q else q

/-- R41, R72: the entry's slot has lost its bell between the ownership tables `before` and `after`. -/
def Strike.lost (before after : Bank (Option SlotIx) 48) (e : Strike) : Bool :=
  before.read e.bell = some e.slot && after.read e.bell ≠ some e.slot

/-- R42, R72: the withdrawals of one recomputation. The entries of every bell that its slot has lost are all removed
before the new head is tested for release, so no entry of a lost bell is released (assumption log 37). -/
def withdrawLost (before : Bank (Option SlotIx) 48) (p : Part) : Part := removeStrikes (·.lost before p.bellOwner) p

/-- R73: every entry of bell `b` is withdrawn. -/
def withdrawBell (b : BellIx) (p : Part) : Part := removeStrikes (fun e => e.bell = b) p

/-! ## Cooling (R71) -/

/-- R71: the heat after a tick. -/
def cooled (h shift : Nat) : Nat := h - max 1 (h / 2 ^ shift)

/-- R71: one bell at a cooling tick. -/
def coolBell (b : BellIx) (p : Part) : Part :=
  if (p.strikes.bells.read b).heat = 0 then p
  else
    let r := readBell b bellCoolingWords p
    match r.1 with
    | none => r.2
    | some rec => setBell b (fun x => { x with heat := cooled x.heat rec.coolShift }) r.2

/-- R71: a cooling tick, at a line time that is a whole multiple of 10 ms. The rule names no order of the bells;
they are read in the order 0 to 47 (DESIGN CHOICE, assumption log 38). -/
def coolTick (p : Part) : Part := if p.lineTime % 10 = 0 then allBells.foldl (fun q b => coolBell b q) p else p

/-! ## Coil reports (R75, R76) -/

/-- The statuses of a COIL payload. -/
inductive CoilStatus where
  | ok | opened | short | hot
  deriving DecidableEq, Repr

def coilStatus : Nat → Option CoilStatus
  | 0 => some .ok
  | 1 => some .opened
  | 2 => some .short
  | 3 => some .hot
  | _ => none

/-- R75: the scan of the bell records, in order, for the first bell with this node and channel, with the
heat limit read there. Every record is read (assumption log 9). -/
def scanBells (node channel : Nat) (hot : Bool) : List BellIx → Part → Option (BellIx × Nat) × Part
  | [], p => (none, p)
  | b :: rest, p =>
    let r := readBell b (bellScanWords hot) p
    let rs := scanBells node channel hot rest r.2
    match r.1 with
    | none => rs
    | some rec =>
      if rec.node ≠ 0 && rec.node = node && rec.channel = channel then (some (b, rec.heatLimit), rs.2) else rs

/-- R73, R76: an OPEN or SHORT report puts the bell OUT OF SERVICE. -/
def bellFaulted (b : BellIx) (p : Part) : Part :=
  latchEvent Source.bellOut (withdrawBell b (setBell b (fun x => { x with health := .outFault }) p))

def coilUnmatched (p : Part) : Part := setCounts (fun c => { c with coilUnmatched := bump c.coilUnmatched }) p

/-- R75, R76: a COIL report of a known status. -/
def coilReport (e : IntakeEntry) (status : CoilStatus) (p : Part) : Part :=
  let r := scanBells e.frame.source.toNat (e.frame.arg 0) (status = .hot) allBells p
  match r.1 with
  | none => coilUnmatched r.2
  | some (b, limit) =>
    match status with
    | .ok => r.2
    | .opened | .short => bellFaulted b r.2
    | .hot => setBell b (fun x => { x with heat := limit }) r.2

def setBellsIntake (f : IntakeQueue → IntakeQueue) (p : Part) : Part :=
  { p with filter := { p.filter with bells := f p.filter.bells } }

/-- R75, R135: the scheduler takes the oldest BELLS intake entry. -/
def takeCoilReport (p : Part) : Part :=
  match p.filter.bells.entries with
  | [] => p
  | e :: rest =>
    let q := setBellsIntake (fun b => { b with entries := rest }) p
    if e.frame.kind ≠ Kind.coil || e.frame.payload.length ≠ 2 then
      coilUnmatched (setBellsIntake (fun b => { b with rejected := some e.hit }) q)
    else
      match coilStatus (e.frame.arg 1) with
      | none => coilUnmatched q
      | some st => coilReport e st q

/-! ## Bell service (R77) -/

/-- The health code of a bell, as STATUS READ and BELL SERVICE send it. -/
def Health.code : Health → Byte
  | .inService => 0
  | .outFault => 1
  | .outManual => 2

/-- R77: a BELL SERVICE request of the right length. -/
def bellServiceRequest (e : IntakeEntry) (p : Part) : Part :=
  match index? 48 (e.frame.arg 1), e.frame.arg 2 with
  | some b, 0 =>
    let q := setBell b (fun x => { x with health := .inService }) p
    answer e .done [Health.code .inService] q
  | some b, 1 =>
    let q := withdrawBell b (setBell b (fun x => { x with health := .outManual }) p)
    answer e .done [Health.code .outManual] q
  | _, _ => answer e .range [] p

/-! ## The meanings -/

/-- STRIKE_RELEASE (R65). -/
def execStrikeRelease (s : State) : Host.Outcome State Fault Refusal := s.run (whenRunning releaseDue)

/-- COOLING_TICK (R71). -/
def execCoolingTick (s : State) : Host.Outcome State Fault Refusal := s.run (whenRunning coolTick)

/-- COIL_REPORT_TAKEN (R75, R76). -/
def execCoilReportTaken (s : State) : Host.Outcome State Fault Refusal := s.run (whenRunning takeCoilReport)

/-- BELL_SERVICE (R77). -/
def execBellService (s : State) : Host.Outcome State Fault Refusal :=
  s.run (whenRunning (onRequest .bellService bellServiceRequest))

end Sys2Proof.Machine
end

