-- ==== Sys2Proof/Machine/Barrel.lean ====
section
/-! DEFINITION. The barrel reader (chapter 03): preparing a context and reading the steps that are due. -/

namespace Sys2Proof.Machine

/-! ## Preparation (R46, R47) -/

/-- R47: the last step read in each repetition. -/
def lastStepOf (duration : Nat) (h : BarrelHeader) : Nat := min (h.steps - 1) (ceilDiv duration h.stepLength - 1)

/-- R46: the context of a show that has no barrel. The rule gives it empty copies; its last step and its cursor, of
which the rule says nothing, are 0 (DESIGN CHOICE, assumption log 1). -/
def BarrelContext.silent : BarrelContext := { BarrelContext.initial with state := .done }

/-- R46: the context of a show whose barrel begins at `pointer`. -/
def BarrelContext.prepared (pointer : Nat) (h : BarrelHeader) (rowMap : List Nat) (duration : Nat) : BarrelContext :=
  { state := .reading, start := pointer, header := h, rowMap := rowMap
    lastStep := lastStepOf duration h, rep := 0, step := 0 }

/-! ## Reading one step (R49 to R53) -/

/-- R44: the address of the word that holds row `k`'s element at step `c`. -/
def BarrelContext.elementWord (x : BarrelContext) (k c : Nat) : Nat :=
  x.header.rowStart x.start k + c * x.header.size / 4

/-- R44, R50: the velocity byte and the offset byte of the element at step `c` in its word. -/
def BarrelContext.velocityByte (x : BarrelContext) (w : Word) (c : Nat) : Nat := byteAt w (c * x.header.size % 4)
def BarrelContext.offsetByte (x : BarrelContext) (w : Word) (c : Nat) : Nat := byteAt w (c * x.header.size % 4 + 1)

/-- R50: the timing offset of an element, no more than half a step. -/
def BarrelContext.timing (x : BarrelContext) (w : Word) (c : Nat) : Int :=
  if x.header.size = 1 then 0
  else
    let half : Int := (x.header.stepLength / 2 : Nat)
    clampInt (-half) half (signedByte (x.offsetByte w c))

/-- R51: the note instant, not before the start of its repetition. -/
def noteInstant (repStart stepOffset : Nat) (timing : Int) : Nat := repStart + ((stepOffset : Int) + timing).toNat

def dropNoBell (p : Part) : Part := setCounts (fun c => { c with noBell := bump c.noBell }) p

/-- R52, R53: a note for row map entry `entry` is checked against the bell table and handed on. -/
def passNote (s : SlotIx) (entry v instant : Nat) (p : Part) : Part :=
  match index? 48 entry with
  | none => dropNoBell p
  | some b =>
    let r := readBell b bellNodeWords p
    match r.1 with
    | none => r.2
    | some rec => if rec.node = 0 then dropNoBell r.2 else handNote s b v instant r.2

/-- R49 to R53: row `k` of the step at the cursor. -/
def readRow (s : SlotIx) (x : BarrelContext) (k : Nat) (p : Part) : Part :=
  let r := readWord .barrel (x.elementWord k x.step) p
  match r.1 with
  | none => setCounts (fun c => { c with barrelError := bump c.barrelError }) r.2
  | some w =>
    let v := x.velocityByte w x.step
    if v = 0 then r.2
    else
      let instant := noteInstant (x.rep * (p.slots.read s).copy.period) (x.step * x.header.stepLength) (x.timing w x.step)
      passNote s (x.rowMap.getD k 255) (min v 127) instant r.2

/-- R54: the cursor after a step. -/
def BarrelContext.advanced (x : BarrelContext) (reps : Nat) : BarrelContext :=
  if x.step < x.lastStep then { x with step := x.step + 1 }
  else if x.rep + 1 < reps then { x with rep := x.rep + 1, step := 0 }
  else { x with state := .done }

/-- R49, R54: the step at the cursor is read whole and the cursor advances. -/
def readStep (s : SlotIx) (p : Part) : Part :=
  let x := p.contexts.read s
  setContext s (·.advanced (p.slots.read s).reps) ((List.range x.header.rows).foldl (fun q k => readRow s x k q) p)

/-! ## Which steps are due (R48) -/

/-- R47: the nominal instant of the step at the cursor. -/
def BarrelContext.nominal (x : BarrelContext) (r : Slot) : Nat := x.rep * r.copy.period + x.step * x.header.stepLength

/-- R48: the step at the cursor is due for reading. -/
def stepDue (s : SlotIx) (p : Part) : Bool :=
  let x := p.contexts.read s
  let r := p.slots.read s
  x.state = .reading && r.state = .running && x.nominal r ≤ r.time p.lineTime + p.settings.lookahead

/-- R48: due steps are read one after another. `fuel` bounds them by the steps that remain. -/
def readLoop (s : SlotIx) : Nat → Part → Part
  | 0, p => p
  | fuel + 1, p => if stepDue s p then readLoop s fuel (readStep s p) else p

/-- R48: the test of the slot's barrel reader, made whenever something can make it true. -/
def readDueSteps (s : SlotIx) (p : Part) : Part :=
  readLoop s ((p.slots.read s).reps * ((p.contexts.read s).lastStep + 1)) p

/-- BARREL_STEP_READ (R48, R49). -/
def execBarrelStepRead (slot : SlotIx) (s : State) : Host.Outcome State Fault Refusal :=
  s.run (whenRunning (readDueSteps slot))

end Sys2Proof.Machine
end

