-- ==== Sys2Proof/Machine/Figures.lean ====
section
/-! DEFINITION. The motion planner (chapter 05): faults, freezes, resynchronisation, retargets, the motion
period, position reports and FIGURE RELEASE. -/

namespace Sys2Proof.Machine

/-! ## Brakes and frames removed (R95, R147) -/

/-- R147: the figure's POSE frames leave OQ-MOTION. -/
def removePoses (k : FigIx) (p : Part) : Part :=
  setOut (fun o => { o with motion := o.motion.filter fun m => m.figure ≠ k }) p

/-- R95: a BRAKE frame for the figure's brake address, or for every drive when it has none. -/
def brakeFigure (k : FigIx) (p : Part) : Part :=
  match (p.figures.read k).brake with
  | some (node, channel) => appendBrake node channel p
  | none => appendBrake 127 255 p

/-- A figure that is DRIVEN or HOMING. -/
def LiveFigure.moving (g : LiveFigure) : Bool := g.state = .driven || g.state = .homing

/-- R95: the state and reason of a faulted figure. -/
def LiveFigure.asFaulted (g : LiveFigure) (why : FaultReason) : LiveFigure :=
  { g with state := .faulted, fault := why, lag := false, stall := none }

/-- R95: a DRIVEN or HOMING figure faults. -/
def faultMoving (k : FigIx) (why : FaultReason) (p : Part) : Part :=
  latchEvent Source.figureFault (setFigure k (·.asFaulted why) (brakeFigure k (removePoses k p)))

/-- R95: a FROZEN figure faults at its resynchronisation; it was braked when it froze. -/
def faultFrozen (k : FigIx) (p : Part) : Part :=
  latchEvent Source.figureFault (setFigure k (·.asFaulted .table) p)

/-! ## Freezes (R96) -/

/-- R96: guard line `n` is added to figure `k`'s hold set. An ALL-STOP line appends no BRAKE per figure. -/
def addHold (k : FigIx) (n : LineIx) (allStop : Bool) (p : Part) : Part :=
  let held := setFigure k (fun g => { g with hold := setMember g.hold n.val }) p
  match (p.figures.read k).state with
  | .driven | .homing =>
    let cleared := removePoses k held
    setFigure k (fun g => { g with state := .frozen, lag := false, stall := none })
      (if allStop then cleared else brakeFigure k cleared)
  | .idle => setFigure k (fun g => { g with state := .frozen, lag := false, stall := none }) held
  | .frozen | .faulted => held

/-! ## Resynchronisation (R97) -/

/-- R97: the figure takes up motion from where it stands. -/
def LiveFigure.resynced (g : LiveFigure) (r : FigureRecord) (now : Nat) : LiveFigure :=
  { g with
    state := if g.owner.isSome then .driven else .homing
    setpoint := r.limit (g.reported.getD g.setpoint)
    lag := false
    stall := none
    silence := some now
    fault := .none }

/-- R97: a figure whose hold set has become empty is resynchronised. -/
def resync (k : FigIx) (p : Part) : Part :=
  let r := readFigure k figureLimitWords p
  match r.1 with
  | none => faultFrozen k r.2
  | some rec => setFigure k (·.resynced rec p.lineTime) r.2

/-- R106: guard line `n` leaves the figure's hold set; an emptied FROZEN figure is resynchronised. -/
def removeHold (n : LineIx) (k : FigIx) (p : Part) : Part :=
  let g := p.figures.read k
  if member g.hold n.val then
    let q := setFigure k (fun x => { x with hold := dropMember x.hold n.val }) p
    if dropMember g.hold n.val = 0 && g.state = .frozen then resync k q else q
  else p

/-! ## Retargets (R43, R90) -/

/-- R90: a figure taken from IDLE to DRIVEN. -/
def driveIdle (k : FigIx) (p : Part) : Part :=
  let r := readFigure k figureLimitWords p
  setFigure k (fun g => { g with
    state := .driven
    setpoint := match r.1 with
      | some rec => rec.limit g.setpoint
      | none => g.setpoint
    lag := false
    stall := none
    silence := some p.lineTime }) r.2

/-- R43, R90: a figure's owner and drive change. -/
def retarget (k : FigIx) (owner : Option SlotIx) (drive : Option Drive) (p : Part) : Part :=
  let q := setFigure k (fun g => { g with owner := owner, drive := drive }) p
  match (p.figures.read k).state, owner with
  | .idle, some _ => driveIdle k q
  | .idle, none => q
  | .driven, some _ => q
  | .driven, none => setFigure k (fun g => { g with state := .homing }) q
  | .homing, some _ => setFigure k (fun g => { g with state := .driven }) q
  | .homing, none => q
  | .frozen, _ => q
  | .faulted, _ => q

/-! ## Paths (R84, R85) -/

/-- A path as read: its loop flag and its keyframes. -/
structure PathData where
  looped : Bool
  frames : List (Nat × Int)
  deriving DecidableEq, Repr

/-- R84: the number of keyframe words read from a path at `pointer`. -/
def framesRead (pointer : Nat) (header : Word) : Nat := min (keyframeCount header) (lastTableWord - pointer)

/-- R84: the header and the keyframe words of a path, as they stand. With the header uncorrectable there is no keyframe
count, and no keyframe word is read (DESIGN CHOICE, assumption log 40). -/
def readPath (pointer : Nat) (p : Part) : Option PathData × Part :=
  let h := readWord .path pointer p
  match h.1 with
  | none => (none, h.2)
  | some w =>
    let r := readEach .path ((List.range (framesRead pointer w)).map (pointer + 1 + ·)) h.2
    ((allOf r.1).map fun ws => { looped := byteAt w 1 ≠ 0, frames := ws.map keyframeOf }, r.2)

/-- R84: the effective times, none before `least`. -/
def effectiveTimes : Nat → List (Nat × Int) → List (Nat × Int)
  | _, [] => []
  | least, (t, x) :: rest => (max least t, x) :: effectiveTimes (max least t) rest

/-- R85: a / d to the nearest whole number, halves rounded away from zero. -/
def roundAway (a : Int) (d : Nat) : Int := a.sign * (((2 * a.natAbs + d) / (2 * d) : Nat) : Int)

/-- R85, case 3: the position at τ from the keyframe (t, x) on, which is at or before τ. -/
def segmentAt (τ : Nat) : Nat → Int → List (Nat × Int) → Int
  | _, x, [] => x
  | t, x, (t', x') :: rest => if t' ≤ τ then segmentAt τ t' x' rest else x + roundAway ((x' - x) * ((τ - t : Nat) : Int)) (t' - t)

/-- R85, cases 2 and 3, over keyframes with effective times. -/
def positionAt (τ : Nat) : List (Nat × Int) → Int
  | [] => 0
  | (t, x) :: rest => if τ < t then x else segmentAt τ t x rest

/-- The last keyframe's time. -/
def lastTime (ks : List (Nat × Int)) : Nat := (ks.getLast?.map Prod.fst).getD 0

/-- R85: the target of a path at path time τ. -/
def PathData.target (d : PathData) (τ : Nat) : Int :=
  let ks := effectiveTimes 0 d.frames
  if d.looped && lastTime ks ≤ τ then
    if lastTime ks = 0 then (ks.head?.map Prod.snd).getD 0 else positionAt (τ % lastTime ks) ks
  else positionAt τ ks

/-! ## Where a driven figure should be (R83, R86) -/

/-- R83: the path time τ of an item with this start offset in slot `r`. In the gap it is D − offset. -/
def pathTime (r : Slot) (offset now : Nat) : Int :=
  let within := r.time now - r.rep now * r.copy.period
  (min within r.copy.duration : Nat) - (offset : Int)

/-- R86: a mirrored target, saturated. -/
def mirrored (home z : Int) : Int := clampInt (-32768) 32767 (2 * home - z)

/-- R83 to R86: the target of a DRIVEN figure, or none when its path read was uncorrectable. -/
def drivenTarget (g : LiveFigure) (rec : FigureRecord) (p : Part) : Option Int × Part :=
  match g.owner, g.drive with
  | some s, some d =>
    match (p.slots.read s).copy.items[d.item.val]? with
    | none => (some g.setpoint, p)
    | some item =>
      let τ := pathTime (p.slots.read s) item.offset p.lineTime
      if τ < 0 then (some g.setpoint, p)
      else
        let r := readPath item.path p
        (r.1.map fun path =>
          let z := path.target τ.toNat
          if d.role = .twin && rec.mirror then mirrored rec.home z else z, r.2)
  | _, _ => (some g.setpoint, p)

/-! ## Clamps and the POSE frame (R88, R89) -/

/-- R140: the capacity of OQ-MOTION. -/
def motionCapacity : Nat := 32

/-- R88: the new setpoint for a target. -/
def FigureRecord.stepTowards (r : FigureRecord) (from_ target : Int) : Int :=
  from_ + clampInt (-(r.maxStep : Int)) r.maxStep (r.limit target - from_)

/-- R88: whether the step limit is applied. -/
def FigureRecord.limited (r : FigureRecord) (from_ target : Int) : Bool := r.maxStep < (r.limit target - from_).natAbs

/-- R89: the POSE frame. No rule gives it a tag: it is a free byte. -/
def poseFrame (rec : FigureRecord) (z : Int) (lag : Bool) (tag : Byte) (p : Part) : Frame :=
  { dest := BitVec.ofNat 8 rec.node
    source := p.settings.ownAddress
    kind := Kind.pose
    tag := tag
    payload := BitVec.ofNat 8 rec.channel :: bytesOf 2 (twosComplement 16 z) ++ [flagByte lag] }

/-- R87: a figure that has come home. -/
def LiveFigure.atRest (g : LiveFigure) : LiveFigure :=
  { g with state := .idle, drive := none, lag := false, stall := none, silence := none }

/-- R87 to R89: the setpoint for a target is sent in a POSE frame, or skipped when OQ-MOTION is full. -/
def sendPose (k : FigIx) (rec : FigureRecord) (target : Int) (p : Part) : Part :=
  let g := p.figures.read k
  let z := rec.stepTowards g.setpoint target
  let lag := rec.limited g.setpoint target
  if p.out.motion.length < motionCapacity then
    let t := drawByte p
    let q := setOut (fun o => { o with motion := o.motion ++ [{ figure := k, frame := poseFrame rec z lag t.1 t.2 }] }) t.2
    let q := setFigure k (fun x => { x with setpoint := z, lag := lag }) q
    let q := if lag && !g.lag then latchEvent Source.figureLag q else q
    if g.state = .homing && z = rec.limit rec.home then setFigure k LiveFigure.atRest q else q
  else setCounts (fun c => { c with motionSkip := bump c.motionSkip }) p

/-! ## The motion period (R82) -/

/-- R94: no report has come for the figure report timeout. -/
def LiveFigure.silent (g : LiveFigure) (p : Part) : Bool :=
  match g.silence with
  | none => false
  | some t => p.settings.reportTimeout ≤ p.lineTime - t

/-- R93: the stall condition has held for the stall time. -/
def LiveFigure.stalled (g : LiveFigure) (rec : FigureRecord) (now : Nat) : Bool :=
  match g.stall with
  | none => false
  | some t => rec.stallTime ≤ now - t

/-- R82, step 2: a figure that is not fitted. -/
def visitUnfitted (k : FigIx) (p : Part) : Part :=
  setFigure k (fun g => if g.state = .driven then { g with silence := some p.lineTime } else g.atRest) p

/-- R82, steps 5 and 6. -/
def visitTarget (k : FigIx) (rec : FigureRecord) (p : Part) : Part :=
  let g := p.figures.read k
  if g.state = .homing then sendPose k rec rec.home p
  else
    let r := drivenTarget g rec p
    match r.1 with
    | none => faultMoving k .table r.2
    | some z => sendPose k rec z r.2

/-- R82, steps 3 to 6, of a fitted figure. -/
def visitFitted (k : FigIx) (rec : FigureRecord) (p : Part) : Part :=
  let g := p.figures.read k
  if g.silent p then faultMoving k .silent p
  else if g.stalled rec p.lineTime then faultMoving k .stall p
  else if g.setpoint < rec.lower || rec.upper < g.setpoint then faultMoving k .table p
  else visitTarget k rec p

/-- Whether a period's visit takes the record's home and mirror flag: for a HOMING figure or a twin. -/
def LiveFigure.takesHome (g : LiveFigure) : Bool := g.state = .homing || g.drive.any (fun d => d.role = .twin)

/-- R82: the visit of one figure. -/
def visitFigure (k : FigIx) (p : Part) : Part :=
  let g := p.figures.read k
  if g.moving then
    let r := readFigure k (figurePeriodWords g.takesHome) p
    match r.1 with
    | none => faultMoving k .table r.2
    | some rec => if rec.node = 0 then visitUnfitted k r.2 else visitFitted k rec r.2
  else p

/-- R82: a motion period, at a line time that is a whole multiple of 20 ms. -/
def motionPeriod (p : Part) : Part := if p.lineTime % 20 = 0 then allFigures.foldl (fun q k => visitFigure k q) p else p

/-! ## Position reports (R91 to R93) -/

/-- R91: the scan of the figure records, in order, for the first with this node and channel. Every record
is read (assumption log 9), and of each only the word that holds the two (R155). -/
def scanFigures (node channel : Nat) : List FigIx → Part → Option FigIx × Part
  | [], p => (none, p)
  | k :: rest, p =>
    let r := readFigure k figureMappingWords p
    let rs := scanFigures node channel rest r.2
    match r.1 with
    | none => rs
    | some rec => if rec.node ≠ 0 && rec.node = node && rec.channel = channel then (some k, rs.2) else rs

/-- R93: the stall start after a report's comparison. -/
def LiveFigure.compared (g : LiveFigure) (rec : FigureRecord) (z : Int) (stamp : Nat) : LiveFigure :=
  { g with stall := if rec.followLimit < (g.setpoint - z).natAbs then some (g.stall.getD stamp) else none }

/-- R93: the stall test for a report at position `z`. -/
def testStall (k : FigIx) (rec : FigureRecord) (z : Int) (stamp : Nat) (p : Part) : Part :=
  let q := setFigure k (·.compared rec z stamp) p
  if (q.figures.read k).stalled rec q.lineTime then faultMoving k .stall q else q

/-- R92, R93: a report for a DRIVEN or HOMING figure, whose position and stamp are stored. The stall test reads
the follow limit and the stall time; with either uncorrectable no rule gives the test an outcome, and it is not made
(DESIGN CHOICE, assumption log 43). -/
def reportMoving (k : FigIx) (z : Int) (stamp : Nat) (endStop : Bool) (p : Part) : Part :=
  let q := setFigure k (fun g => { g with silence := some stamp }) p
  if endStop then faultMoving k .endStop q
  else
    let r := readFigure k figureStallWords q
    match r.1 with
    | none => r.2
    | some rec => testStall k rec z stamp r.2

/-- R92: a report mapped to figure `k`. -/
def reportFigure (k : FigIx) (z : Int) (stamp : Nat) (endStop : Bool) (p : Part) : Part :=
  let q := setFigure k (fun g => { g with reported := some z, reportStamp := some stamp }) p
  if (p.figures.read k).moving then reportMoving k z stamp endStop q else q

def positionUnmatched (p : Part) : Part :=
  setCounts (fun c => { c with positionUnmatched := bump c.positionUnmatched }) p

def setFiguresIntake (f : IntakeQueue → IntakeQueue) (p : Part) : Part :=
  { p with filter := { p.filter with figures := f p.filter.figures } }

/-- R91, R135: the planner takes the oldest FIGURES intake entry. -/
def takePositionReport (p : Part) : Part :=
  match p.filter.figures.entries with
  | [] => p
  | e :: rest =>
    let q := setFiguresIntake (fun b => { b with entries := rest }) p
    if e.frame.kind ≠ Kind.position || e.frame.payload.length ≠ 4 then
      positionUnmatched (setFiguresIntake (fun b => { b with rejected := some e.hit }) q)
    else
      let r := scanFigures e.frame.source.toNat (e.frame.arg 0) allFigures q
      match r.1 with
      | none => positionUnmatched r.2
      | some k => reportFigure k (signedHalf (e.frame.number 1 2)) e.stamp (e.frame.arg 3 ≠ 0) r.2

/-! ## FIGURE RELEASE (R98) -/

/-- R98, step 1: the lines that a release takes out of hold sets, those not asserted with auto-resume
clear. -/
def releasable (p : Part) : BitVec 8 :=
  allLines.foldl (fun s n =>
    let l := p.guard.lines.read n
    if !l.config.autoResume && !l.asserted then setMember s n.val else s) 0

/-- R98: one figure named by a release. -/
def releaseFigure (lines : BitVec 8) (k : FigIx) (p : Part) : Part :=
  let g := p.figures.read k
  let q := setFigure k (fun x => { x with hold := x.hold &&& ~~~ lines }) p
  let emptied := g.hold &&& ~~~ lines = 0
  match g.state with
  | .faulted =>
    let q := setFigure k (fun x => { x with fault := .none, state := .frozen }) q
    if emptied then resync k q else q
  | .frozen => if emptied then resync k q else q
  | .idle | .driven | .homing => q

def FigureState.code : FigureState → Nat
  | .idle => 0
  | .driven => 1
  | .homing => 2
  | .frozen => 3
  | .faulted => 4

def FaultReason.code : FaultReason → Nat
  | .none => 0
  | .stall => 1
  | .silent => 2
  | .endStop => 3
  | .table => 4

/-- R98: the state in the high four bits and the fault reason in the low four. -/
def LiveFigure.stateByte (g : LiveFigure) : Byte := BitVec.ofNat 8 (g.state.code * 16 + g.fault.code)

/-- R98: a FIGURE RELEASE request of the right length. -/
def figureReleaseRequest (e : IntakeEntry) (p : Part) : Part :=
  let named : BitVec 16 := BitVec.ofNat 16 (e.frame.number 1 2)
  let q := allFigures.foldl (fun q k => if member named k.val then releaseFigure (releasable p) k q else q) p
  answer e .done (q.figures.toList.map LiveFigure.stateByte) q

/-! ## The meanings -/

/-- MOTION_PERIOD (R82). -/
def execMotionPeriod (s : State) : Host.Outcome State Fault Refusal := s.run (whenRunning motionPeriod)

/-- POSITION_REPORT_TAKEN (R91). -/
def execPositionReportTaken (s : State) : Host.Outcome State Fault Refusal := s.run (whenRunning takePositionReport)

/-- FIGURE_RELEASE (R98). -/
def execFigureRelease (s : State) : Host.Outcome State Fault Refusal :=
  s.run (whenRunning (onRequest .figureRelease figureReleaseRequest))

end Sys2Proof.Machine
end

