-- ==== Sys2Proof/Machine/Slots.lean ====
section
/-! DEFINITION. The slot controller (chapter 02): checking and starting shows, start requests and pending
starts, hold, resume and stop, and the ownership table. -/

namespace Sys2Proof.Machine

/-! ## Ownership (R39, R41) -/

/-- R39: the highest-rank busy slot whose show lists bell `b`. -/
def bellClaim (slots : Bank Slot 3) (b : BellIx) : Option SlotIx :=
  allSlots.find? fun i => (slots.read i).busy && member (slots.read i).copy.bells b.val

/-- R39: the highest-rank busy slot whose show lists figure `k`, directly or as a twin. -/
def figureClaim (slots : Bank Slot 3) (k : FigIx) : Option SlotIx :=
  allSlots.find? fun i => (slots.read i).busy && ((slots.read i).copy.figures.lookup k).isSome

/-- R43: what governs figure `k` in its owner's show. -/
def governing (slots : Bank Slot 3) (k : FigIx) (owner : Option SlotIx) : Option Drive :=
  owner.bind fun i => (slots.read i).copy.figures.lookup k

/-- R41, R43: the retarget of a figure whose owner has changed. -/
def handRetarget (before : Bank (Option SlotIx) 16) (k : FigIx) (p : Part) : Part :=
  let owner := p.figOwner.read k
  if owner = before.read k then p else retarget k owner (governing p.slots k owner) p

/-- R41: the ownership table is taken afresh and the hand-offs delivered. The rule names no order of the hand-offs:
all withdrawals come first, and then the retargets by figure, 0 to 15 (DESIGN CHOICE, assumption log 37). -/
def recompute (p : Part) : Part :=
  let q := { p with bellOwner := Vector.ofFn (bellClaim p.slots), figOwner := Vector.ofFn (figureClaim p.slots) }
  let q := withdrawLost p.bellOwner q
  allFigures.foldl (fun x k => handRetarget p.figOwner k x) q

/-! ## Checking a show (R25, R26) -/

/-- A show that has passed its checks: its copy, and its barrel's header and row map when it has one. -/
structure CheckedShow where
  copy   : ShowCopy
  barrel : Option (BarrelHeader × List Nat)
  deriving DecidableEq, Repr

/-- R25: the words of a show entry that a start takes; none for each word that was uncorrectable. The item
words are read only as far as the item count goes, and with the word that holds the count uncorrectable none is read
(DESIGN CHOICE, assumption log 40). -/
def readEntry (show_ : ShowIx) (p : Part) : List (Option Word) × Part :=
  let head := readEach .record (entryHeadWords.map (showBase show_ + ·)) p
  match head.1.headD none with
  | none => head
  | some w0 =>
    let items := readEach .record ((entryItemWords (itemCount fun _ => w0)).map (showBase show_ + ·)) head.2
    (head.1 ++ items.1, items.2)

/-- R26, R44: the checks of the barrel a show names. The rules name no order of them: a pointer whose header would not
lie in table memory is refused before a word is read, the extent is judged before the row map is read, and after
an uncorrectable row map word the rest of the row map is read all the same (DESIGN CHOICE, assumption log 10). -/
def checkBarrel (pointer : Nat) (p : Part) : Except Result (Option (BarrelHeader × List Nat)) × Part :=
  if pointer = 0 then (.ok none, p)
  else if !inHeap pointer || lastTableWord < pointer + 1 then (.error .range, p)
  else
    let h := readRecord .barrel pointer [0, 1] p
    match h.1 with
    | none => (.error .table, h.2)
    | some w =>
      let header := barrelHeader w
      if lastTableWord < header.lastWord pointer then (.error .range, h.2)
      else
        let m := readEach .barrel ((List.range header.mapWords).map (pointer + 2 + ·)) h.2
        match allOf m.1 with
        | none => (.error .table, m.2)
        | some ws => (.ok (some (header, rowMapOf header.rows ws)), m.2)

/-- R26, R84: the check of a path a figure item names; none when it passes. The header is read before the extent is judged,
also for a pointer of 16382 or 16383, which no header makes valid: with it uncorrectable the result is TABLE (DESIGN CHOICE,
assumption log 10). -/
def checkPath (pointer : Nat) (p : Part) : Option Result × Part :=
  if !inHeap pointer then (some .range, p)
  else
    let h := readWord .path pointer p
    match h.1 with
    | none => (some .table, h.2)
    | some w => (if lastTableWord < pointer + keyframeCount w then some .range else none, h.2)

/-- R26: the checks of every figure item's path, in item order, up to the first that fails. -/
def checkPaths : List FigureItem → Part → Option Result × Part
  | [], p => (none, p)
  | i :: rest, p =>
    let r := checkPath i.path p
    match r.1 with
    | some why => (some why, r.2)
    | none => checkPaths rest r.2

/-- R26: the checks made before anything in the slot changes, in the order of assumption log 10. -/
def checkShow (show_ : ShowIx) (p : Part) : Except Result CheckedShow × Part :=
  let r := readEntry show_ p
  match r.1.headD none with
  | none => (.error .table, r.2)
  | some w0 =>
    if byteAt w0 0 = 0 then (.error .range, r.2)
    else
      match allOf r.1 with
      | none => (.error .table, r.2)
      | some ws =>
        let copy := showCopy fun k => ws.getD k 0
        let b := checkBarrel copy.barrel r.2
        match b.1 with
        | .error why => (.error why, b.2)
        | .ok barrel =>
          let q := checkPaths copy.items b.2
          match q.1 with
          | some why => (.error why, q.2)
          | none => (.ok { copy := copy, barrel := barrel }, q.2)

/-! ## Figure lists (R25, R40) -/

/-- R25: the items that govern a figure, with their indexes: those whose figure no earlier item names. -/
def governingItems (items : List FigureItem) : List (Fin 8 × FigIx) :=
  ((List.finRange 8).zip items).filterMap fun (i, it) =>
    if (items.take i.val).any (fun e => e.figure = it.figure) then none else some (i, it.figure)

/-- R40: the twin that the item of figure `k` implies, or none, given what is listed already. -/
def impliedTwin (rec : Option FigureRecord) (k : FigIx) (items : List FigureItem) (listed : List (FigIx × Drive)) : Option FigIx :=
  match rec.bind FigureRecord.twin with
  | none => none
  | some t =>
    if t = k || items.any (fun e => e.figure = t) || listed.any (fun e => e.1 = t) then none else some t

/-- R40: the figures a show lists, each with the item that governs it and its role. -/
def resolveItems (items : List FigureItem) : List (Fin 8 × FigIx) → List (FigIx × Drive) → Part → List (FigIx × Drive) × Part
  | [], listed, p => (listed, p)
  | (i, k) :: rest, listed, p =>
    let r := readFigure k figureTwinWords p
    let own := listed ++ [(k, { item := i, role := .item })]
    match impliedTwin r.1 k items listed with
    | none => resolveItems items rest own r.2
    | some t => resolveItems items rest (own ++ [(t, { item := i, role := .twin })]) r.2

/-! ## Starting (R27, R28) -/

/-- R27: the repetition count, or none for an HOUR COUNT show with no trigger hour. -/
def repetitions (c : ShowCopy) (hour : Option Nat) : Option Nat :=
  match c.repeatMode with
  | .once => some 1
  | .fixed => some c.fixedCount
  | .hourCount => hour.map fun h => if h % 12 = 0 then 12 else h % 12

/-- R28, step 4: the slot's context for a checked show. The header and the row map are those that the checks have
read: no word is read a second time (DEDUCED from R46, assumption log 39). -/
def contextOf (c : CheckedShow) : BarrelContext :=
  match c.barrel with
  | none => BarrelContext.silent
  | some (h, m) => BarrelContext.prepared c.copy.barrel h m c.copy.duration

/-- R28: a start that has passed its checks, and the reads that are due at once (R48). -/
def startShow (slot : SlotIx) (show_ : ShowIx) (source : StartSource) (rank reps : Nat) (c : CheckedShow) (p : Part) : Part :=
  let r := resolveItems c.copy.items (governingItems c.copy.items) [] p
  let q := setSlot slot (fun x => { x with
    state := .running, showIx := show_, source := source, rank := rank, reps := reps
    origin := p.lineTime, hold := none, copy := { c.copy with figures := r.1 } }) r.2
  let q := recompute q
  let q := setContext slot (fun _ => contextOf c) q
  readDueSteps slot (latchEvent Source.showStarted q)

/-- R36, R46: a slot becomes IDLE, its context with it, and the ownership table is recomputed. -/
def idleSlot (slot : SlotIx) (p : Part) : Part :=
  recompute (setContext slot (fun _ => BarrelContext.initial)
    (setSlot slot (fun x => { x with state := .idle, hold := none }) p))

/-- R30, R31: the running show is stopped and the new one starts; the pending start stays. -/
def replaceShow (slot : SlotIx) (show_ : ShowIx) (source : StartSource) (rank reps : Nat) (c : CheckedShow) (p : Part) : Part :=
  startShow slot show_ source rank reps c (idleSlot slot p)

/-! ## Start requests from the calendar and the timers (R29 to R33, R38) -/

/-- A start request handed to the slot controller (R16, R18). -/
structure StartRequest where
  slot    : SlotIx
  showIx  : ShowIx
  source  : StartSource
  rank    : Nat
  hour    : Option Nat
  trigger : Nat
  deriving DecidableEq, Repr

def loseStart (p : Part) : Part := latchEvent Source.startLost p

/-- R26, R27: a request that is to start is checked and carried out by `start`, or dropped with source 24. -/
def attemptStart (r : StartRequest) (start : Nat → CheckedShow → Part → Part) (p : Part) : Part :=
  let c := checkShow r.showIx p
  match c.1 with
  | .error _ => loseStart c.2
  | .ok checked =>
    match repetitions checked.copy r.hour with
    | none => loseStart c.2
    | some reps => start reps checked c.2

/-- R32: the request becomes the slot's pending start; one already held is lost with source 24. -/
def becomePending (r : StartRequest) (p : Part) : Part :=
  let q := if (p.slots.read r.slot).waiting.isSome then loseStart p else p
  setSlot r.slot (fun x => { x with waiting := some {
    showIx := r.showIx, source := r.source, rank := r.rank, hour := r.hour, trigger := r.trigger
    expiry := r.trigger + p.settings.pendingExpiry * 60000 } }) q

/-- R31: the request replaces the running show at once. -/
def replaces (r : StartRequest) (x : Slot) : Bool :=
  r.source = .calendar && x.source = .calendar && x.rank < r.rank

/-- R29 to R32, R38: what becomes of a calendar or timer start request. -/
def requestStart (r : StartRequest) (p : Part) : Part :=
  if allStopAsserted p then loseStart p
  else if !(p.slots.read r.slot).busy then
    attemptStart r (fun reps c => startShow r.slot r.showIx r.source r.rank reps c) p
  else if replaces r (p.slots.read r.slot) then
    attemptStart r (fun reps c => replaceShow r.slot r.showIx r.source r.rank reps c) p
  else becomePending r p

/-- R33: the pending start of a slot that has become IDLE is removed from its record and started. -/
def considerPending (slot : SlotIx) (p : Part) : Part :=
  match (p.slots.read slot).waiting with
  | none => p
  | some w =>
    let r : StartRequest := { slot := slot, showIx := w.showIx, source := w.source, rank := w.rank, hour := w.hour, trigger := w.trigger }
    attemptStart r (fun reps c => startShow slot w.showIx w.source w.rank reps c)
      (setSlot slot (fun x => { x with waiting := none }) p)

/-! ## Ends, expiries and ALL-STOP (R24, R33, R37) -/

/-- R24: a RUNNING slot whose time has reached its end instant. -/
def endDue (slot : SlotIx) (p : Part) : Bool :=
  (p.slots.read slot).state = .running && (p.slots.read slot).endInstant ≤ (p.slots.read slot).time p.lineTime

/-- R24: the show ends. The slot becomes IDLE, source 23 is latched, the ownership table is recomputed, and
the pending start is considered. -/
def endShow (slot : SlotIx) (p : Part) : Part :=
  if endDue slot p then
    let q := setContext slot (fun _ => BarrelContext.initial)
      (setSlot slot (fun x => { x with state := .idle, hold := none }) p)
    considerPending slot (recompute (latchEvent Source.showEnded q))
  else p

/-- R33: the slot's pending start has reached its expiry. -/
def expiryDue (slot : SlotIx) (p : Part) : Bool :=
  match (p.slots.read slot).waiting with
  | none => false
  | some w => w.expiry ≤ p.lineTime

/-- R33: an expired pending start is discarded with source 24. -/
def expirePending (slot : SlotIx) (p : Part) : Part :=
  if expiryDue slot p then loseStart (setSlot slot (fun x => { x with waiting := none }) p) else p

/-- R37: one pending start is discarded with source 24. -/
def discardPending (p : Part) (slot : SlotIx) : Part :=
  if (p.slots.read slot).waiting.isSome then loseStart (setSlot slot (fun x => { x with waiting := none }) p) else p

/-- R37: every slot becomes IDLE, every pending start is discarded, and no bell or figure has an owner. -/
def stopSlots (p : Part) : Part :=
  let q := { p with
    slots := p.slots.each fun x => { x with state := SlotState.idle, hold := none }
    contexts := p.contexts.each fun _ => BarrelContext.initial }
  recompute (allSlots.foldl discardPending q)

/-! ## The requests (R30, R34 to R36) -/

/-- The wall clock's hour while the clock is SET (R18, R27). -/
def clockHour (p : Part) : Option Nat := if p.cal.clockState = .set then some p.cal.clock.hour else none

/-- R30: a SHOW START judged from its checks on. -/
def judgeShowStart (e : IntakeEntry) (slot : SlotIx) (show_ : ShowIx) (p : Part) : Part :=
  let c := checkShow show_ p
  match c.1 with
  | .error why => answer e why [] c.2
  | .ok checked =>
    match repetitions checked.copy (clockHour p) with
    | none => answer e .state [] c.2
    | some reps =>
      answer e .done [] (if (p.slots.read slot).busy then replaceShow slot show_ .management 0 reps checked c.2
        else startShow slot show_ .management 0 reps checked c.2)

/-- R30: a SHOW START request of the right length. -/
def showStartRequest (e : IntakeEntry) (p : Part) : Part :=
  match index? 3 (e.frame.arg 1), index? 32 (e.frame.arg 2) with
  | some slot, some show_ =>
    if allStopAsserted p then answer e .state [] p
    else if (p.slots.read slot).busy && e.frame.arg 3 = 0 then answer e .busy [] p
    else judgeShowStart e slot show_ p
  | _, _ => answer e .range [] p

/-- R36: a SHOW STOP of a busy slot. -/
def stopShow (slot : SlotIx) (discard : Bool) (p : Part) : Part :=
  let q := idleSlot slot p
  if discard then setSlot slot (fun x => { x with waiting := none }) q else considerPending slot q

/-- R36: a SHOW STOP request of the right length. -/
def showStopRequest (e : IntakeEntry) (p : Part) : Part :=
  match index? 3 (e.frame.arg 1) with
  | none => answer e .range [] p
  | some slot => answer e .done [] (if (p.slots.read slot).busy then stopShow slot (e.frame.arg 2 ≠ 0) p else p)

/-- R34: a SHOW HOLD request of the right length. -/
def showHoldRequest (e : IntakeEntry) (p : Part) : Part :=
  match index? 3 (e.frame.arg 1) with
  | none => answer e .range [] p
  | some slot =>
    if (p.slots.read slot).state = .running then
      answer e .done [] (setSlot slot (fun x => { x with state := .held, hold := some p.lineTime }) p)
    else answer e .state [] p

/-- R35: a HELD slot's origin advances by the held interval and it becomes RUNNING. -/
def Slot.resumed (r : Slot) (now : Nat) : Slot :=
  { r with state := .running, origin := r.origin + (now - r.hold.getD now), hold := none }

/-- R35: a SHOW RESUME request of the right length. A slot held at its end instant ends at once; otherwise
the steps now due are read (R48). -/
def showResumeRequest (e : IntakeEntry) (p : Part) : Part :=
  match index? 3 (e.frame.arg 1) with
  | none => answer e .range [] p
  | some slot =>
    if (p.slots.read slot).state = .held then
      answer e .done [] (endShow slot (readDueSteps slot (setSlot slot (·.resumed p.lineTime) p)))
    else answer e .state [] p

/-! ## The meanings -/

/-- SHOW_END (R24). -/
def execShowEnd (slot : SlotIx) (s : State) : Host.Outcome State Fault Refusal := s.run (whenRunning (endShow slot))

/-- PENDING_EXPIRY (R33). -/
def execPendingExpiry (slot : SlotIx) (s : State) : Host.Outcome State Fault Refusal :=
  s.run (whenRunning (expirePending slot))

/-- SHOW_START (R30). -/
def execShowStart (s : State) : Host.Outcome State Fault Refusal := s.run (whenRunning (onRequest .showStart showStartRequest))

/-- SHOW_STOP (R36). -/
def execShowStop (s : State) : Host.Outcome State Fault Refusal := s.run (whenRunning (onRequest .showStop showStopRequest))

/-- SHOW_HOLD (R34). -/
def execShowHold (s : State) : Host.Outcome State Fault Refusal := s.run (whenRunning (onRequest .showHold showHoldRequest))

/-- SHOW_RESUME (R35). -/
def execShowResume (s : State) : Host.Outcome State Fault Refusal :=
  s.run (whenRunning (onRequest .showResume showResumeRequest))

end Sys2Proof.Machine
end

