-- ==== Sys2Proof/Machine/Guards.lean ====
section
/-! DEFINITION. The guard unit (chapter 06): sampling, assertion and deassertion, settles, pulses, and the
requests that read and clear events and guard lines. -/

namespace Sys2Proof.Machine

/-! ## Sampling (R101, R102) -/

/-- R101: the run of differing samples at which a new level is taken. -/
def takenRun : Nat := 10

/-- R101, R102: one line meets a sample. The first sample after a reset sets the taken level; later ones
lengthen or zero the run, which waits at 10 for the change to be taken. -/
def GuardLine.sampled (l : GuardLine) (first level : Bool) : GuardLine :=
  if first then { l with taken := level, run := 0 }
  else if level = l.taken then { l with run := 0 }
  else { l with run := min (l.run + 1) takenRun }

/-- R101: the eight inputs are sampled. -/
def sampleInputs (levels : BitVec 8) (p : Part) : Part :=
  let q := allLines.foldl (fun x n => setLine n (·.sampled p.guard.awaitingSample (member levels n.val)) x) p
  { q with guard := { q.guard with awaitingSample := false, inputs := levels } }

/-- R101: the line's run has reached 10 and its new level is `high`. -/
def GuardLine.changing (l : GuardLine) : Bool := l.run = takenRun

/-- R101, R103: the new level is taken. -/
def GuardLine.takeChange (l : GuardLine) : GuardLine := { l with taken := !l.taken, run := 0, changed := true }

/-! ## Assertion (R104, R105) -/

/-- R104: a ZONE-FREEZE line meets figure `k`. A record that reads uncorrectable is added all the same; one
with node 0 is not. -/
def freezeInZones (n : LineIx) (zones : BitVec 8) (k : FigIx) (p : Part) : Part :=
  let r := readFigure k figureZoneWords p
  match r.1 with
  | none => addHold k n false r.2
  | some rec => if rec.node ≠ 0 && member zones rec.zone then addHold k n false r.2 else r.2

/-- R105: the effects of an ALL-STOP assertion. STOP follows from the line's state (R110). -/
def allStop (n : LineIx) (p : Part) : Part :=
  let q := allFigures.foldl (fun x k => addHold k n true x) p
  let q := setQueue [] (setOut (fun o => { o with strike := [], motion := [] }) q)
  stopSlots (appendBrake 127 255 q)

/-- R104: the line's class effect. -/
def classEffect (n : LineIx) (p : Part) : Part :=
  let c := (p.guard.lines.read n).config
  match c.cls with
  | .note => p
  | .zoneFreeze => allFigures.foldl (fun x k => freezeInZones n c.zones k x) p
  | .allStop => allStop n p

/-- R104: the settle is cancelled, source n latched, and the class effect carried out. -/
def assertLine (n : LineIx) (p : Part) : Part :=
  classEffect n (latchEvent (Source.guardLine n) (setLine n (fun l => { l with settle := none }) p))

/-- R101, R104: a change to the active level is taken. -/
def takeAssertion (n : LineIx) (p : Part) : Part :=
  let l := p.guard.lines.read n
  if l.changing && !l.asserted then assertLine n (setLine n GuardLine.takeChange p) else p

/-! ## Deassertion and settle (R106) -/

/-- R106: some figure's hold set holds the line. -/
def lineHeld (n : LineIx) (p : Part) : Bool := p.figures.toList.any fun g => member g.hold n.val

/-- R106: the effect of a deassertion. A settle begins for an auto-resume line that is not of class NOTE,
or that is still in some hold set. -/
def deassertLine (n : LineIx) (p : Part) : Part :=
  let c := (p.guard.lines.read n).config
  if c.autoResume && (c.cls ≠ .note || lineHeld n p) then
    setLine n (fun l => { l with settle := some (p.lineTime + c.settleTime) }) p
  else p

/-- R101, R106: a change away from the active level is taken. -/
def takeDeassertion (n : LineIx) (p : Part) : Part :=
  let l := p.guard.lines.read n
  if l.changing && l.asserted then deassertLine n (setLine n GuardLine.takeChange p) else p

/-- R106: line time has reached the line's settle deadline. -/
def settleDue (n : LineIx) (p : Part) : Bool :=
  match (p.guard.lines.read n).settle with
  | none => false
  | some t => t ≤ p.lineTime

/-- R106: the deadline becomes none and the line leaves every hold set. The rule names no order of the figures; they are
taken, and the emptied ones resynchronised, in the order 0 to 15 (DESIGN CHOICE, assumption log 38). -/
def endSettle (n : LineIx) (p : Part) : Part :=
  if settleDue n p then
    allFigures.foldl (fun x k => removeHold n k x) (setLine n (fun l => { l with settle := none }) p)
  else p

/-! ## Pulses (R111) -/

/-- R111: line time has reached the pin's pulse end. -/
def PinState.endDue (x : PinState) (now : Nat) : Bool :=
  match x.pulseEnd with
  | none => false
  | some t => t ≤ now

def PinState.ended (x : PinState) (now : Nat) : PinState := if x.endDue now then { x with pulseEnd := none } else x

/-- R111: the pin's pulse ends. -/
def endPulse (pin : Pin) (p : Part) : Part :=
  match pin with
  | .stop => { p with events := { p.events with stop := p.events.stop.ended p.lineTime } }
  | .beacon => { p with events := { p.events with beacon := p.events.beacon.ended p.lineTime } }

/-! ## The requests (R103, R112) -/

/-- R103: a line's byte in the GUARD READ reply; its four bits without a meaning are 0 (DESIGN CHOICE, assumption
log 35). -/
def GuardLine.statusByte (l : GuardLine) : Byte :=
  BitVec.ofNat 8 (bitIf l.taken 0 + bitIf l.asserted 1 + bitIf l.changed 2 + bitIf l.settle.isSome 3)

/-- R103: a GUARD READ request of the right length; the changed bits are cleared after the reply is formed. -/
def guardReadRequest (e : IntakeEntry) (p : Part) : Part :=
  answer e .done (p.guard.lines.toList.map GuardLine.statusByte)
    { p with guard := { p.guard with lines := p.guard.lines.each fun l => { l with changed := false } } }

/-- R112: the latches, repeat flags and enables. -/
def eventBytes (e : EventUnit) : List Byte := bytesOf 4 e.latches.toNat ++ bytesOf 4 e.repeats.toNat ++ bytesOf 4 e.enables.toNat

/-- R112: the present activity of the pins; the six bits without a meaning are 0 (DESIGN CHOICE, assumption log 35). -/
def pinByte (p : Part) : Byte := BitVec.ofNat 8 (bitIf (stopActive p) 0 + bitIf (beaconActive p) 1)

/-- R112: an EVENT READ request of the right length. -/
def eventReadRequest (e : IntakeEntry) (p : Part) : Part := answer e .done (eventBytes p.events ++ [pinByte p]) p

/-- R112: the latch and the repeat flag of each named source are cleared. -/
def clearEvents (named : BitVec 32) (p : Part) : Part :=
  { p with events := { p.events with latches := p.events.latches &&& ~~~ named, repeats := p.events.repeats &&& ~~~ named } }

/-- R112: an EVENT CLEAR request of the right length. -/
def eventClearRequest (e : IntakeEntry) (p : Part) : Part :=
  let q := clearEvents (BitVec.ofNat 32 (e.frame.number 1 4)) p
  answer e .done (eventBytes q.events) q

/-! ## The meanings -/

/-- GUARD_INPUT_SAMPLE (R101, R102). -/
def execGuardInputSample (levels : BitVec 8) (s : State) : Host.Outcome State Fault Refusal :=
  s.run (whenRunning (sampleInputs levels))

/-- GUARD_ASSERTION (R104). -/
def execGuardAssertion (line : LineIx) (s : State) : Host.Outcome State Fault Refusal :=
  s.run (whenRunning (takeAssertion line))

/-- GUARD_DEASSERTION (R106). -/
def execGuardDeassertion (line : LineIx) (s : State) : Host.Outcome State Fault Refusal :=
  s.run (whenRunning (takeDeassertion line))

/-- SETTLE_END (R106). -/
def execSettleEnd (line : LineIx) (s : State) : Host.Outcome State Fault Refusal := s.run (whenRunning (endSettle line))

/-- PULSE_END (R111). -/
def execPulseEnd (pin : Pin) (s : State) : Host.Outcome State Fault Refusal := s.run (whenRunning (endPulse pin))

/-- GUARD_READ (R103). -/
def execGuardRead (s : State) : Host.Outcome State Fault Refusal := s.run (whenRunning (onRequest .guardRead guardReadRequest))

/-- EVENT_READ (R112). -/
def execEventRead (s : State) : Host.Outcome State Fault Refusal := s.run (whenRunning (onRequest .eventRead eventReadRequest))

/-- EVENT_CLEAR (R112). -/
def execEventClear (s : State) : Host.Outcome State Fault Refusal := s.run (whenRunning (onRequest .eventClear eventClearRequest))

end Sys2Proof.Machine
end

