-- ==== Sys2Proof/Machine/Configure.lean ====
section
/-! DEFINITION. APPLY CONFIG (R161): the configuration block read, clamped and put in place in seven steps. -/

namespace Sys2Proof.Machine

/-! ## The fields of the configuration block (R160, R161) -/

/-- A number or an enumeration code as it stands in the block, with its range. -/
structure Field where
  raw : Nat
  lo  : Nat
  hi  : Nat
  deriving DecidableEq, Repr

/-- R161: the value taken. -/
def Field.value (x : Field) : Nat := clamp x.lo x.hi x.raw

/-- R161: whether the field is clamped. -/
def Field.clamped (x : Field) : Bool := x.raw < x.lo || x.hi < x.raw

def ownField (w : Nat → Word) : Field := ⟨byteAt (w 0) 0, 1, 126⟩
def releaseField (w : Nat → Word) : Field := ⟨byteAt (w 0) 1, 0, 1⟩
def stopModeField (w : Nat → Word) : Field := ⟨byteAt (w 0) 2, 0, 1⟩
def beaconModeField (w : Nat → Word) : Field := ⟨byteAt (w 0) 3, 0, 1⟩
def strikeLevelField (w : Nat → Word) : Field := ⟨byteAt (w 1) 0, 0, 3⟩
def motionLevelField (w : Nat → Word) : Field := ⟨byteAt (w 1) 1, 0, 3⟩
def passDnLevelField (w : Nat → Word) : Field := ⟨byteAt (w 1) 2, 0, 3⟩
def reportLevelField (w : Nat → Word) : Field := ⟨byteAt (w 1) 3, 0, 3⟩
def passUpLevelField (w : Nat → Word) : Field := ⟨byteAt (w 2) 0, 0, 3⟩
def lineAllowanceField (w : Nat → Word) : Field := ⟨byteAt (w 2) 1, 2, 30⟩
def lateLimitField (w : Nat → Word) : Field := ⟨byteAt (w 2) 2, 0, 20⟩
def catchUpField (w : Nat → Word) : Field := ⟨byteAt (w 2) 3, 0, 30⟩
def lookaheadField (w : Nat → Word) : Field := ⟨halfAt (w 3) 0, 100, 1000⟩
def reportTimeoutField (w : Nat → Word) : Field := ⟨halfAt (w 3) 1, 100, 5000⟩
def pendingExpiryField (w : Nat → Word) : Field := ⟨byteAt (w 4) 0, 1, 60⟩
def activeLevelField (w : Nat → Word) (n : LineIx) : Field := ⟨byteAt (w (8 + 2 * n.val)) 0, 0, 1⟩
def classField (w : Nat → Word) (n : LineIx) : Field := ⟨byteAt (w (8 + 2 * n.val)) 1, 0, 2⟩
def settleField (w : Nat → Word) (n : LineIx) : Field := ⟨halfAt (w (9 + 2 * n.val)) 0, 100, 10000⟩

/-- R20: the binding bytes of a timer; a slot of 255 means none and leaves the show byte ignored. -/
def bindingFields (w : Nat → Word) (t : TimerIx) : Option (Field × Field) :=
  let b := w (33 + 2 * t.val)
  if byteAt b 0 = 255 then none else some (⟨byteAt b 0, 0, 2⟩, ⟨byteAt b 1, 0, 31⟩)

/-- Every field of the block that has a range. -/
def blockFields (w : Nat → Word) : List Field :=
  [ownField w, releaseField w, stopModeField w, beaconModeField w, strikeLevelField w, motionLevelField w, passDnLevelField w,
    reportLevelField w, passUpLevelField w, lineAllowanceField w, lateLimitField w, catchUpField w, lookaheadField w,
    reportTimeoutField w, pendingExpiryField w] ++
  (allLines.flatMap fun n => [activeLevelField w n, classField w n, settleField w n]) ++
  (allTimers.flatMap fun t => match bindingFields w t with
    | none => []
    | some (slot, show_) => [slot, show_])

/-- R161: some field of the block was clamped. -/
def blockClamped (w : Nat → Word) : Bool := (blockFields w).any Field.clamped

/-! ## The settings the block gives -/

def settingsOf (w : Nat → Word) : Settings :=
  { ownAddress := BitVec.ofNat 8 (ownField w).value
    lineAllowance := (lineAllowanceField w).value
    lateLimit := (lateLimitField w).value
    lookahead := (lookaheadField w).value
    reportTimeout := (reportTimeoutField w).value
    catchUp := (catchUpField w).value
    pendingExpiry := (pendingExpiryField w).value }

def levelsOf (w : Nat → Word) : Levels :=
  { strike := (strikeLevelField w).value, motion := (motionLevelField w).value, passDn := (passDnLevelField w).value
    report := (reportLevelField w).value, passUp := (passUpLevelField w).value }

def ReleaseMode.ofCode (n : Nat) : ReleaseMode := if n = 0 then .free else .polled
def PinMode.ofCode (n : Nat) : PinMode := if n = 0 then .level else .pulse
def GuardClass.ofCode : Nat → GuardClass
  | 0 => .note
  | 1 => .zoneFreeze
  | _ => .allStop

def guardConfigOf (w : Nat → Word) (n : LineIx) : GuardConfig :=
  { activeHigh := (activeLevelField w n).value ≠ 0
    cls := GuardClass.ofCode (classField w n).value
    zones := BitVec.ofNat 8 (byteAt (w (8 + 2 * n.val)) 2)
    autoResume := byteAt (w (8 + 2 * n.val)) 3 ≠ 0
    settleTime := (settleField w n).value }

/-- R20: the timer the block gives; its count is its new reload. -/
def timerOf (w : Nat → Word) (t : TimerIx) : CueTimer :=
  let b := w (32 + 2 * t.val)
  { count := b.toNat % 16777216
    reload := b.toNat % 16777216
    run := (byteAt b 0).testBit 0
    stopAtOverflow := (byteAt b 0).testBit 1
    binding := (bindingFields w t).map fun x => (clampIx 2 x.1.value, clampIx 31 x.2.value) }

/-! ## Putting them in place (R161, steps 1 to 7) -/

/-- Steps 1 and 3. -/
def applySettings (w : Nat → Word) (p : Part) : Part := { p with settings := settingsOf w }

/-- Step 2 and R143: a change of the release mode sets the release mark to 0. -/
def applyLevels (w : Nat → Word) (p : Part) : Part :=
  setOut (fun o => { o with
    levels := levelsOf w
    mode := ReleaseMode.ofCode (releaseField w).value
    mark := if ReleaseMode.ofCode (releaseField w).value = o.mode then o.mark else 0 }) p

/-- R113: a pin whose mode changes has no pulse in progress. -/
def PinState.moded (x : PinState) (m : PinMode) : PinState := if x.mode = m then x else { mode := m, pulseEnd := none }

/-- R113: the enables, the routes and the pin modes. -/
def EventUnit.configured (e : EventUnit) (w : Nat → Word) : EventUnit :=
  { e with
    enables := w 24, routeFrame := w 25, routeStop := w 26, routeBeacon := w 27
    stop := e.stop.moded (PinMode.ofCode (stopModeField w).value)
    beacon := e.beacon.moded (PinMode.ofCode (beaconModeField w).value) }

/-- Step 4 and R113: one ATTENTION frame when some source is listed that was not before. What was listed before is
judged as step 4 begins, so a source that the request's own reads have latched counts as listed already (DESIGN
CHOICE, assumption log 42). -/
def applyEvents (w : Nat → Word) (p : Part) : Part :=
  let q := { p with events := p.events.configured w }
  if q.events.listed &&& ~~~ p.events.listed = 0 then q else raiseAttention q

/-- R107: a line that is deasserted before and after. -/
def reexamineSettle (n : LineIx) (p : Part) : Part :=
  let l := p.guard.lines.read n
  match l.settle, l.config.autoResume with
  | some _, false => setLine n (fun x => { x with settle := none }) p
  | none, true => setLine n (fun x => { x with settle := some (p.lineTime + x.config.settleTime) }) p
  | some _, true | none, false => p

/-- R107: one line is re-examined; `old` is the line before the request. -/
def reexamine (old : GuardLine) (n : LineIx) (p : Part) : Part :=
  let l := p.guard.lines.read n
  match old.asserted, l.asserted with
  | false, true => assertLine n p
  | true, false => deassertLine n p
  | true, true =>
    if old.config.cls = l.config.cls && old.config.zones = l.config.zones then p
    else classEffect n (latchEvent (Source.guardLine n) p)
  | false, false => reexamineSettle n p

/-- Step 5: every line takes its new configuration, and then each is re-examined. -/
def applyGuards (w : Nat → Word) (p : Part) : Part :=
  let q := allLines.foldl (fun x n => setLine n (fun l => { l with config := guardConfigOf w n }) x) p
  allLines.foldl (fun x n => reexamine (p.guard.lines.read n) n x) q

/-- Step 6. -/
def applyTimers (w : Nat → Word) (p : Part) : Part := { p with cal := { p.cal with timers := Vector.ofFn (timerOf w) } }

/-- R99: one figure's stored setpoint meets its soft limits. -/
def clampFigure (k : FigIx) (p : Part) : Part :=
  let r := readFigure k figureLimitWords p
  match r.1 with
  | some rec => setFigure k (fun g => { g with setpoint := rec.limit g.setpoint }) r.2
  | none => if (p.figures.read k).moving then faultMoving k .table r.2 else r.2

/-- Step 7. The rule names no order of the figures; they are read in the order 0 to 15 (DESIGN CHOICE, assumption
log 38). -/
def applyFigures (p : Part) : Part := allFigures.foldl (fun q k => clampFigure k q) p

/-- R48, R65, R161: a changed lookahead and a changed line allowance are tested at once: the lookahead in the order
of the slots, 0 to 2, and then the line allowance (DESIGN CHOICE, assumption log 32). -/
def applyTests (old : Settings) (p : Part) : Part :=
  let q := if p.settings.lookahead = old.lookahead then p else allSlots.foldl (fun x s => readDueSteps s x) p
  if p.settings.lineAllowance = old.lineAllowance then q else releaseDue q

/-- R161: the clamped settings are put in place. -/
def applyBlock (w : Nat → Word) (p : Part) : Part :=
  applyTests p.settings
    (applyFigures (applyTimers w (applyGuards w (applyEvents w (applyLevels w (applySettings w p))))))

/-- R161: an APPLY CONFIG request of the right length. -/
def applyConfigRequest (e : IntakeEntry) (p : Part) : Part :=
  let r := readEach .management (List.range 64) p
  match allOf r.1 with
  | none => answer e .table [] r.2
  | some ws =>
    let w := fun k => ws.getD k 0
    answer e (if blockClamped w then .clamped else .done) [] (applyBlock w r.2)

/-- APPLY_CONFIG (R161). -/
def execApplyConfig (s : State) : Host.Outcome State Fault Refusal :=
  s.run (whenRunning (onRequest .applyConfig applyConfigRequest))

end Sys2Proof.Machine
end

