-- ==== Sys2Proof/Machine/Calendar.lean ====
section
/-! DEFINITION. The calendar unit (chapter 01): the wall clock, TIME frames, slew and step, minute evaluation
and catch-up, and the cue timers. -/

namespace Sys2Proof.Machine

/-! ## Dates (R1) -/

/-- R1: February has 29 days in every year divisible by 4. -/
def monthLength (year month : Nat) : Nat :=
  match month with
  | 1 => 31
  | 2 => if year % 4 = 0 then 29 else 28
  | 3 => 31
  | 4 => 30
  | 5 => 31
  | 6 => 30
  | 7 => 31
  | 8 => 31
  | 9 => 30
  | 10 => 31
  | 11 => 30
  | 12 => 31
  | _ => 0

/-- R1: the ranges of the fields. -/
def DateTime.possible (d : DateTime) : Bool :=
  2000 ≤ d.year && d.year ≤ 2099 && 1 ≤ d.month && d.month ≤ 12 && 1 ≤ d.day && d.day ≤ monthLength d.year d.month &&
    d.hour ≤ 23 && d.minute ≤ 59 && d.second ≤ 59 && d.milli ≤ 999

/-- The days of the year before its month `month`. -/
def daysBefore (year : Nat) : Nat → Nat
  | 0 => 0
  | m + 1 => daysBefore year m + monthLength year m

/-- R1: the days D from 2000-01-01 to the date. -/
def DateTime.dayNumber (d : DateTime) : Nat :=
  365 * (d.year - 2000) + (d.year - 2000 + 3) / 4 + daysBefore d.year d.month + (d.day - 1)

/-- R1: the weekday, 0 for Monday. -/
def DateTime.weekday (d : DateTime) : Nat := (d.dayNumber + 5) % 7

def dayMillis : Nat := 86400000
def minuteMillis : Nat := 60000

/-- The milliseconds from 2000-01-01 00:00:00.000 to the time. -/
def DateTime.millis (d : DateTime) : Nat :=
  d.dayNumber * dayMillis + d.hour * 3600000 + d.minute * minuteMillis + d.second * 1000 + d.milli

/-- R1: the end of the clock's span, 2099-12-31 23:59:59.999. -/
def lastMillis : Nat := 36525 * dayMillis - 1

/-- The month and the day of the month of day `doy` of a year, counted from 0, trying months `m` to 12. -/
def monthAndDay (year : Nat) : Nat → Nat → Nat → Nat × Nat
  | 0, m, doy => (m, doy + 1)
  | fuel + 1, m, doy => if doy < monthLength year m then (m, doy + 1) else monthAndDay year fuel (m + 1) (doy - monthLength year m)

/-- The year and the day of the year (from 0) of day number `n`. -/
def yearAndDay (n : Nat) : Nat × Nat :=
  let r := n % 1461
  if r < 366 then (2000 + 4 * (n / 1461), r) else (2000 + 4 * (n / 1461) + 1 + (r - 366) / 365, (r - 366) % 365)

/-- The time that lies `n` milliseconds after 2000-01-01 00:00:00.000. -/
def timeOfMillis (n : Nat) : DateTime :=
  let y := yearAndDay (n / dayMillis)
  let md := monthAndDay y.1 11 1 y.2
  let t := n % dayMillis
  { year := y.1, month := md.1, day := md.2, hour := t / 3600000, minute := t / minuteMillis % 60
    second := t / 1000 % 60, milli := t % 1000 }

/-- R1, R5: the time `n` milliseconds later, no later than the end of the span. -/
def DateTime.later (d : DateTime) (n : Nat) : DateTime := timeOfMillis (min (d.millis + n) lastMillis)

/-- R10: floored to the minute. -/
def DateTime.floorMinute (d : DateTime) : DateTime := { d with second := 0, milli := 0 }

/-- R10: boundary `b` is later than the stamp. -/
def afterStamp (stamp : Option DateTime) (b : DateTime) : Bool :=
  match stamp with
  | none => true
  | some s => s.millis < b.millis

def setCal (f : CalendarUnit → CalendarUnit) (p : Part) : Part := { p with cal := f p.cal }

/-! ## The running clock (R2, R8) -/

/-- R3, R8: this millisecond is one at which the slew correction is applied: a multiple of 100 ms of line
time or, in a reset, of the time since the reset began. -/
def slewDue (p : Part) : Bool :=
  match p.phase with
  | .running => p.lineTime % 100 = 0
  | .lineBreak | .softReset => p.resetMs % 100 = 0 && p.resetMs ≠ 0

/-- R1, R2, R8: the clock after one millisecond of line time. An advance of two milliseconds that the end of the
span cuts to one lowers the slew remainder all the same: the rules do not say whether it does (DESIGN CHOICE,
assumption log 36). -/
def CalendarUnit.advanced (c : CalendarUnit) (correct : Bool) : CalendarUnit :=
  if c.clockState = .unset || lastMillis ≤ c.clock.millis then c
  else if correct && 0 < c.slew then { c with clock := c.clock.later 2, slew := c.slew - 1 }
  else if correct && c.slew < 0 then { c with slew := c.slew + 1 }
  else { c with clock := c.clock.later 1 }

/-- R2: the wall clock's millisecond. -/
def advanceClock (p : Part) : Part := setCal (·.advanced (slewDue p)) p

/-! ## Candidates and winners (R14 to R16) -/

/-- R15: a month and day as a number that orders dates within a year. -/
def dateKey (month day : Nat) : Nat := month * 32 + day

/-- R15: the entry's date range contains the date. -/
def CalendarEntry.inRange (e : CalendarEntry) (b : DateTime) : Bool :=
  let s := dateKey e.startMonth e.startDay
  let t := dateKey e.endMonth e.endDay
  let x := dateKey b.month b.day
  if s ≤ t then s ≤ x && x ≤ t else s ≤ x || x ≤ t

/-- R15: the entry is a candidate for the slot at the boundary. -/
def CalendarEntry.candidate (e : CalendarEntry) (slot : SlotIx) (b : DateTime) : Bool :=
  e.valid && e.slot = slot && e.inRange b && e.weekdays.testBit b.weekday && e.hours.testBit b.hour && e.minute = b.minute

/-- R16: the highest season rank, and among equals the lowest index; the list is in index order. -/
def bestOf : List CalendarEntry → Option CalendarEntry
  | [] => none
  | e :: rest =>
    match bestOf rest with
    | none => some e
    | some x => if e.rank < x.rank then some x else some e

/-- R14: the entries that read well, in index order. Each is read whole, and they are read in the order 0 to 63, of which
the rule names none (DESIGN CHOICE, assumption log 38). -/
def readCalendar : List Nat → Part → List CalendarEntry × Part
  | [], p => ([], p)
  | i :: rest, p =>
    let r := readRecord .calendar (calendarBase i) [0, 1, 2, 3] p
    let rs := readCalendar rest r.2
    match r.1 with
    | none => rs
    | some w => (calendarEntry w :: rs.1, rs.2)

/-- R16: the winner for a slot at a boundary. -/
def winner (es : List CalendarEntry) (slot : SlotIx) (b : DateTime) : Option CalendarEntry :=
  bestOf (es.filter fun e => e.candidate slot b)

/-- R16: the winner's start request. -/
def calendarRequest (e : CalendarEntry) (b : DateTime) (p : Part) : StartRequest :=
  { slot := e.slot, showIx := e.showIx, source := .calendar, rank := e.rank, hour := some b.hour, trigger := p.lineTime }

/-- R16: the winner, if there is one, is handed to the slot controller. -/
def handWinner (w : Option CalendarEntry) (b : DateTime) (p : Part) : Part :=
  match w with
  | none => p
  | some e => requestStart (calendarRequest e b p) p

/-- R16: the boundary is evaluated. The entries are read once, and the slots served in order. -/
def evaluateBoundary (b : DateTime) (p : Part) : Part :=
  let r := readCalendar (List.range 64) p
  allSlots.foldl (fun q slot => handWinner (winner r.1 slot b) b q) r.2

/-- R11: the clock has passed a minute later than the stamp. -/
def boundaryPassed (p : Part) : Bool := p.cal.clockState = .set && afterStamp p.cal.stamp p.cal.clock.floorMinute

/-- R11: the boundary is evaluated and the stamp set to it. -/
def passBoundary (p : Part) : Part :=
  if boundaryPassed p then
    let b := p.cal.clock.floorMinute
    setCal (fun c => { c with stamp := some b }) (evaluateBoundary b p)
  else p

/-! ## Catching up (R12, R13) -/

/-- R12: the skipped boundaries within the window, latest first. -/
def skippedBoundaries (stamp : Option DateTime) (now window : Nat) : List DateTime :=
  (((List.range (window + 1)).filter fun k => k * minuteMillis ≤ now).map fun k =>
      timeOfMillis ((now / minuteMillis - k) * minuteMillis)).filter fun b =>
    afterStamp stamp b && now - b.millis ≤ window * minuteMillis

/-- R12: the search for the latest boundary at which the slot has a candidate. -/
def searchSlot (slot : SlotIx) : List DateTime → Part → Option (DateTime × CalendarEntry) × Part
  | [], p => (none, p)
  | b :: rest, p =>
    let r := readCalendar (List.range 64) p
    match winner r.1 slot b with
    | some e => (some (b, e), r.2)
    | none => searchSlot slot rest r.2

/-- R12: one slot is caught up. -/
def catchUpSlot (bs : List DateTime) (p : Part) (slot : SlotIx) : Part :=
  let r := searchSlot slot bs p
  match r.1 with
  | none => r.2
  | some (b, e) => handWinner (some e) b r.2

/-- R9, R13: the later of the stamp and the time floored to the minute. -/
def raisedStamp (stamp : Option DateTime) (t : DateTime) : Option DateTime :=
  if afterStamp stamp t.floorMinute then some t.floorMinute else stamp

/-- R9, R12, R13: the catch-up to the present clock time, after which the stamp is raised to it. -/
def catchUp (p : Part) : Part :=
  let bs := skippedBoundaries p.cal.stamp p.cal.clock.millis p.settings.catchUp
  setCal (fun c => { c with stamp := raisedStamp c.stamp c.clock }) (allSlots.foldl (catchUpSlot bs) p)

/-! ## TIME frames (R4 to R9) -/

/-- The payload of a TIME frame. -/
def timeOfPayload (f : Frame) : DateTime :=
  { year := f.number 0 2, month := f.arg 2, day := f.arg 3, hour := f.arg 4, minute := f.arg 5, second := f.arg 6
    milli := f.number 7 2 }

/-- R6: the clock is set from UNSET. -/
def setClock (t : DateTime) (p : Part) : Part :=
  latchEvent Source.clockSet
    (setCal (fun c => { c with clock := t, clockState := .set, slew := 0, stamp := some t.floorMinute }) p)

/-- R9: the clock is stepped; a forward step is caught up, and a backward one leaves the stamp. -/
def stepClock (t : DateTime) (d : Int) (p : Part) : Part :=
  let q := latchEvent Source.clockStepped (setCal (fun c => { c with clock := t, slew := 0 }) p)
  if 0 < d then catchUp q else q

/-- R6, R7: a possible TIME frame with effective time `t`. -/
def useTime (t : DateTime) (p : Part) : Part :=
  match p.cal.clockState with
  | .unset => setClock t p
  | .set =>
    let d : Int := (t.millis : Int) - (p.cal.clock.millis : Int)
    if d.natAbs ≤ 2000 then setCal (fun c => { c with slew := d }) p else stepClock t d p

def rejectTime (p : Part) : Part := setCal (fun c => { c with timeRejected := bump c.timeRejected }) p

def setCalendarIntake (f : IntakeQueue → IntakeQueue) (p : Part) : Part :=
  { p with filter := { p.filter with calendar := f p.filter.calendar } }

/-- R4, R5, R135: the calendar unit takes the oldest CALENDAR intake entry. -/
def takeTimeFrame (p : Part) : Part :=
  match p.filter.calendar.entries with
  | [] => p
  | e :: rest =>
    let q := setCalendarIntake (fun b => { b with entries := rest }) p
    if e.frame.kind ≠ Kind.time || e.frame.payload.length ≠ 9 then
      rejectTime (setCalendarIntake (fun b => { b with rejected := some e.hit }) q)
    else if (timeOfPayload e.frame).possible then useTime ((timeOfPayload e.frame).later (p.lineTime - e.stamp)) q
    else rejectTime q

/-! ## Cue timers (R17 to R19) -/

/-- R18: the top of a timer's range. -/
def timerTop : Nat := 16777215

/-- R17: a running timer's millisecond below the top. -/
def CueTimer.counted (t : CueTimer) : CueTimer := if t.run && t.count < timerTop then { t with count := t.count + 1 } else t

/-- R18: the start request of a bound timer's overflow. -/
def timerRequest (b : SlotIx × ShowIx) (p : Part) : StartRequest :=
  { slot := b.1, showIx := b.2, source := .timer, rank := 0, hour := clockHour p, trigger := p.lineTime }

/-- R18: the timer overflows. -/
def overflowTimer (t : TimerIx) (p : Part) : Part :=
  let q := latchEvent (Source.timer t) (setTimer t (fun x => { x with count := x.reload }) p)
  let q := match (p.cal.timers.read t).binding with
    | none => q
    | some b => requestStart (timerRequest b q) q
  setTimer t (fun x => if x.stopAtOverflow then { x with run := false } else x) q

/-- R18: a running timer at the top overflows. -/
def countPastTop (t : TimerIx) (p : Part) : Part :=
  let x := p.cal.timers.read t
  if x.run && x.count = timerTop then overflowTimer t p else p

/-- R19: the timer's data in the reply to a TIMER CONTROL request. The show beside a binding of none has no
value: it is a free byte. The six bits beside the run and stop flags have no meaning and are 0 (DESIGN CHOICE,
assumption log 35). -/
def timerData (t : TimerIx) (p : Part) : List Byte × Part :=
  let x := p.cal.timers.read t
  let head := bytesOf 3 x.count ++ bytesOf 3 x.reload ++ [BitVec.ofNat 8 (bitIf x.run 0 + bitIf x.stopAtOverflow 1)]
  match x.binding with
  | some b => (head ++ [BitVec.ofNat 8 b.1.val, BitVec.ofNat 8 b.2.val], p)
  | none =>
    let f := drawByte p
    (head ++ [255, f.1], f.2)

/-- R19: the reply to a TIMER CONTROL request that names a timer. -/
def answerTimer (e : IntakeEntry) (t : TimerIx) (result : Result) (p : Part) : Part :=
  let d := timerData t p
  answer e result d.1 d.2

/-- R162, R19: TIMER CONTROL requests, one step for each action. A request whose length is wrong or whose
action is not listed names no step of its own: any of the six steps takes it (assumption log 11). -/
def onTimerControl (action : Nat) (body : IntakeEntry → TimerIx → Part → Part) (p : Part) : Part :=
  takeManagement
    (fun f => f.request = some .timerControl && (f.payload.length ≠ 6 || f.arg 2 = action || 5 < f.arg 2))
    (fun e q =>
      if Request.timerControl.lengthSuits e.frame.payload.length then
        match index? 8 (e.frame.arg 1) with
        | none => answer e .range [] q
        | some t => if e.frame.arg 2 = action then body e t q else answerTimer e t .range q
      else answer e .length [] q) p

def timerRunRequest (e : IntakeEntry) (t : TimerIx) (p : Part) : Part :=
  answerTimer e t .done (setTimer t (fun x => { x with run := true }) p)

def timerStopRequest (e : IntakeEntry) (t : TimerIx) (p : Part) : Part :=
  answerTimer e t .done (setTimer t (fun x => { x with run := false }) p)

/-- R19: step increases a stopped timer's count, overflowing at the top; a running timer refuses it. -/
def timerStepRequest (e : IntakeEntry) (t : TimerIx) (p : Part) : Part :=
  let x := p.cal.timers.read t
  if x.run then answerTimer e t .state p
  else answerTimer e t .done
    (if x.count = timerTop then overflowTimer t p else setTimer t (fun x => { x with count := x.count + 1 }) p)

def timerTransferRequest (e : IntakeEntry) (t : TimerIx) (p : Part) : Part :=
  answerTimer e t .done (setTimer t (fun x => { x with count := x.reload }) p)

def timerSetReloadRequest (e : IntakeEntry) (t : TimerIx) (p : Part) : Part :=
  answerTimer e t .done (setTimer t (fun x => { x with reload := e.frame.number 3 3 }) p)

/-- R19: the binding a request gives: 255 for none; a slot of 3..254 or a show above 31 is refused. -/
def timerSetBindingRequest (e : IntakeEntry) (t : TimerIx) (p : Part) : Part :=
  if e.frame.arg 3 = 255 then answerTimer e t .done (setTimer t (fun x => { x with binding := none }) p)
  else
    match index? 3 (e.frame.arg 3), index? 32 (e.frame.arg 4) with
    | some slot, some show_ => answerTimer e t .done (setTimer t (fun x => { x with binding := some (slot, show_) }) p)
    | _, _ => answerTimer e t .range p

/-! ## The meanings -/

/-- CLOCK_ADVANCE (R2, R8). It goes on in a reset (R3). -/
def execClockAdvance (s : State) : Host.Outcome State Fault Refusal := s.run advanceClock

/-- MINUTE_BOUNDARY_EVALUATION (R11, R16). -/
def execMinuteBoundaryEvaluation (s : State) : Host.Outcome State Fault Refusal := s.run (whenRunning passBoundary)

/-- TIME_FRAME_TAKEN (R4 to R9, R12). -/
def execTimeFrameTaken (s : State) : Host.Outcome State Fault Refusal := s.run (whenRunning takeTimeFrame)

/-- CUE_TIMER_COUNT (R17). At the top the increase is the step CUE_TIMER_OVERFLOW. -/
def execCueTimerCount (timer : TimerIx) (s : State) : Host.Outcome State Fault Refusal :=
  s.run (whenRunning (setTimer timer CueTimer.counted))

/-- CUE_TIMER_OVERFLOW (R18). -/
def execCueTimerOverflow (timer : TimerIx) (s : State) : Host.Outcome State Fault Refusal :=
  s.run (whenRunning (countPastTop timer))

/-- TIMER_RUN (R19). -/
def execTimerRun (s : State) : Host.Outcome State Fault Refusal := s.run (whenRunning (onTimerControl 0 timerRunRequest))

/-- TIMER_STOP (R19). -/
def execTimerStop (s : State) : Host.Outcome State Fault Refusal := s.run (whenRunning (onTimerControl 1 timerStopRequest))

/-- TIMER_STEP (R19). -/
def execTimerStep (s : State) : Host.Outcome State Fault Refusal := s.run (whenRunning (onTimerControl 2 timerStepRequest))

/-- TIMER_TRANSFER (R19). -/
def execTimerTransfer (s : State) : Host.Outcome State Fault Refusal :=
  s.run (whenRunning (onTimerControl 3 timerTransferRequest))

/-- TIMER_SET_RELOAD (R19). -/
def execTimerSetReload (s : State) : Host.Outcome State Fault Refusal :=
  s.run (whenRunning (onTimerControl 4 timerSetReloadRequest))

/-- TIMER_SET_BINDING (R19). -/
def execTimerSetBinding (s : State) : Host.Outcome State Fault Refusal :=
  s.run (whenRunning (onTimerControl 5 timerSetBindingRequest))

end Sys2Proof.Machine
end

