-- ==== Sys2Proof/WellFormed.lean ====
section
/-! DEFINITION. Which commands can come from the line at all. Indexes are bounded by their types; what is
left to check is the length of a received frame and the value of an over-long length character. -/

namespace Sys2Proof

/-- R116, R118: a frame that completes has a length character of 0..32. -/
def Frame.wellFormed (f : Frame) : Bool := f.payload.length ≤ 32

/-- A command that the line and the pins can give. -/
def Instr.wellFormed : Instr → Bool
  | .frameReceived _ f _ => f.wellFormed
  | .lengthAbove32 _ n => 32 < n.toNat
  | .powerOnReset | .lineBreakReset | .lbrEnd | .softResetEnd => true
  | .badStopBit _ | .runOnCharacter _ | .truncation _ | .receiverReady _ => true
  | .downlineBreak | .downlineBreakEnd | .downlineTransmitStart | .uplineTransmitStart => true
  | .frameSent _ | .spacingEnd _ => true
  | .clockAdvance | .minuteBoundaryEvaluation | .timeFrameTaken => true
  | .cueTimerOverflow _ | .cueTimerCount _ => true
  | .showEnd _ | .pendingExpiry _ | .barrelStepRead _ => true
  | .strikeRelease | .coolingTick | .coilReportTaken => true
  | .motionPeriod | .positionReportTaken => true
  | .guardAssertion _ | .guardDeassertion _ | .settleEnd _ | .pulseEnd _ | .guardInputSample _ => true
  | .verifySweep => true
  | .tableWrite | .tableRead | .applyConfig | .filterWrite | .maskWrite | .filterRead | .filterEnable => true
  | .showStart | .showStop | .showHold | .showResume | .verifyShow | .figureRelease | .bellService => true
  | .timerRun | .timerStop | .timerStep | .timerTransfer | .timerSetReload | .timerSetBinding => true
  | .eventRead | .eventClear | .guardRead | .statusRead | .errorRead | .queueFlush | .softReset => true
  | .unknownRequest | .nonRequestEntryDiscarded | .emptyRequest => true

end Sys2Proof
end

