-- ==== Sys2Proof/Machine/Line.lean ====
section
/-! DEFINITION. The receivers (chapter 07), the acceptance filter unit (chapter 08) and the requests that
edit filters and masks. -/

namespace Sys2Proof.Machine

/-! ## Ports -/

def portOf (w : Port) (p : Part) : LinePort :=
  match w with
  | .upline => p.up
  | .downline => p.down

def setPort (w : Port) (f : LinePort → LinePort) (p : Part) : Part :=
  match w with
  | .upline => { p with up := f p.up }
  | .downline => { p with down := f p.down }

def setReceiver (w : Port) (f : Receiver → Receiver) (p : Part) : Part := setPort w (fun x => { x with rx := f x.rx }) p
def setPortCounts (w : Port) (f : PortCounts → PortCounts) (p : Part) : Part :=
  setPort w (fun x => { x with counts := f x.counts }) p

/-- R118: the port's check-error count increments. -/
def countCheckError (w : Port) (p : Part) : Part := setPortCounts w (fun c => { c with checkErrors := bump c.checkErrors }) p

/-- The receiver enters a state with no run-on to count. -/
def Receiver.enter (r : Receiver) (x : RxState) : Receiver := { r with state := x, runOn := false }

/-- R116, R120: a frame may be in progress: the receiver is not in HUNT and no break lasts. No row of the
table takes a single character, so READY stands for FRAME here as well (assumption log 12). -/
def Receiver.takesFrame (r : Receiver) : Bool := r.state ≠ .hunt && !r.inBreak

/-! ## Receive errors (R116, R118) -/

/-- R118: the frame in progress is discarded, the error counted, and the receiver enters `x`. In HUNT nothing is
counted, and a bad stop bit there, even as the first character after a complete frame, leaves the run-on of R116
still to be counted (DESIGN CHOICE, assumption log 44). -/
def discardFrame (w : Port) (x : RxState) (p : Part) : Part :=
  if (portOf w p).rx.takesFrame then setReceiver w (·.enter x) (countCheckError w p) else p

/-- R118: a length character of 33..255. -/
def overlongFrame (w : Port) (length : Byte) (p : Part) : Part := if 32 < length.toNat then discardFrame w .hunt p else p

/-- R116: the first character after a complete frame, before the idle, counts one error. -/
def runOn (w : Port) (p : Part) : Part :=
  let r := (portOf w p).rx
  if r.state = .hunt && r.runOn && !r.inBreak then
    setReceiver w (fun x => { x with runOn := false }) (countCheckError w p)
  else p

/-- R116: 40 µs of idle in HUNT. -/
def becomeReady (w : Port) (p : Part) : Part :=
  let r := (portOf w p).rx
  if r.state = .hunt && !r.inBreak then setReceiver w (·.enter .ready) p else p

/-! ## Breaks on the downline line (R120) -/

/-- R120: a downline break latches source 29 once and stops the receiver. -/
def beginBreak (p : Part) : Part :=
  if p.down.rx.inBreak then p
  else latchEvent Source.downlineBreak (setReceiver .downline (fun _ => { state := .hunt, runOn := false, inBreak := true }) p)

/-- R120: the line returns to mark and the receiver enters HUNT. -/
def endBreak (p : Part) : Part :=
  if p.down.rx.inBreak then setReceiver .downline (fun _ => { state := .hunt, runOn := false, inBreak := false }) p else p

/-! ## Matching (R129, R131) -/

def Direction.names : Direction → Port → Bool
  | .up, .upline => true
  | .down, .downline => true
  | .both, _ => true
  | _, _ => false

/-- R129: the bits a compare mask sets are equal. -/
def maskEqual (m a b : Byte) : Bool := a &&& m == b &&& m

/-- A frame's selector: its first payload byte, or 0. -/
def selectorOf (f : Frame) : Byte := f.payload.headD 0

/-- R129: the frame matches the filter. -/
def Filter.matchesFrame (x : Filter) (masks : Bank Mask 4) (own : Byte) (w : Port) (f : Frame) : Bool :=
  let m := masks.read x.mask
  x.enabled && x.direction.names w && maskEqual m.dest f.dest (if x.self then own else x.dest) &&
    maskEqual m.source f.source x.source && maskEqual m.kind f.kind x.kind && maskEqual m.selector (selectorOf f) x.selector

/-- R134: the capacities of the intake queues. -/
def managementCapacity : Nat := 8
def calendarCapacity : Nat := 4
def figuresCapacity : Nat := 16
def bellsCapacity : Nat := 16

/-- R131: the consumer can accept a frame. -/
def canAccept (a : Action) (u : FilterUnit) : Bool :=
  match a with
  | .discard => true
  | .poll => true
  | .management => u.management.entries.length < managementCapacity
  | .calendar => u.calendar.entries.length < calendarCapacity
  | .figures => u.figures.entries.length < figuresCapacity
  | .bells => u.bells.entries.length < bellsCapacity

def allFilters : List FilterIx := List.finRange 32

/-- R129: the filters a frame matches, lowest index first. -/
def matching (w : Port) (f : Frame) (p : Part) : List FilterIx :=
  allFilters.filter fun i => (p.filter.filters.read i).matchesFrame p.filter.masks p.settings.ownAddress w f

/-- R131: the winner, the lowest matching filter whose consumer can accept. -/
def winningFilter (w : Port) (f : Frame) (p : Part) : Option FilterIx :=
  (matching w f p).find? fun i => canAccept (p.filter.filters.read i).action p.filter

/-! ## Intake and polls (R131, R132, R134, R136, R137) -/

/-- The unit with the intake queue of a consumer changed; NONE and POLL have none. -/
def FilterUnit.changeQueue (u : FilterUnit) (a : Action) (f : IntakeQueue → IntakeQueue) : FilterUnit :=
  match a with
  | .discard => u
  | .poll => u
  | .management => { u with management := f u.management }
  | .calendar => { u with calendar := f u.calendar }
  | .figures => { u with figures := f u.figures }
  | .bells => { u with bells := f u.bells }

def setFilterUnit (f : FilterUnit → FilterUnit) (p : Part) : Part := { p with filter := f p.filter }

/-- R136: the QUIET frame that answers a poll. -/
def quietFrame (f : Frame) (p : Part) : Frame :=
  { dest := f.source, source := p.settings.ownAddress, kind := Kind.quiet, tag := f.tag, payload := [] }

/-- R136, R137: a poll is answered under the release mode in force. -/
def answerPoll (f : Frame) (p : Part) : Part :=
  match p.out.mode with
  | .free => appendReport (quietFrame f p) p
  | .polled =>
    if p.out.report.isEmpty then setOut (fun o => { o with mark := 1 }) (appendReport (quietFrame f p) p)
    else setOut (fun o => { o with mark := o.report.length }) p

/-- R131: the winner's action is carried out. -/
def deliver (i : FilterIx) (f : Frame) (p : Part) : Part :=
  match (p.filter.filters.read i).action with
  | .discard => p
  | .poll => answerPoll f p
  | a => setFilterUnit (·.changeQueue a fun q => { q with entries := q.entries ++ [{ frame := f, stamp := p.lineTime, hit := i }] }) p

/-- R132: the frame is delivered nowhere, and the overflow of its lowest matching filter's consumer counted. -/
def overflowIntake (i : FilterIx) (p : Part) : Part :=
  latchEvent Source.intakeOverflow
    (setFilterUnit (·.changeQueue (p.filter.filters.read i).action fun q => { q with overflow := bump q.overflow }) p)

/-! ## Forwarding (R121, R122, R133) -/

/-- R140: the capacity of each pass queue. -/
def passCapacity : Nat := 32

/-- R122: the pass queue of the other port. -/
def passQueue (w : Port) (o : Outbound) : List WireFrame :=
  match w with
  | .upline => o.passDn
  | .downline => o.passUp

def Outbound.appendPass (o : Outbound) (w : Port) (x : WireFrame) : Outbound :=
  match w with
  | .upline => { o with passDn := o.passDn ++ [x] }
  | .downline => { o with passUp := o.passUp ++ [x] }

/-- R121, R122: a frame is forwarded into the other port's pass queue and counted forwarded, or lost as a
pass drop and counted dropped. -/
def forwardFrame (w : Port) (x : WireFrame) (p : Part) : Part :=
  if (passQueue w p.out).length < passCapacity then
    setPortCounts w (fun c => { c with forwarded := bump c.forwarded }) (setOut (·.appendPass w x) p)
  else
    setPortCounts w (fun c => { c with dropped := bump c.dropped })
      (latchEvent Source.passDrop (setCounts (fun c => { c with passDrop := bump c.passDrop }) p))

def countConsumed (w : Port) (p : Part) : Part := setPortCounts w (fun c => { c with consumed := bump c.consumed }) p
def countDropped (w : Port) (p : Part) : Part := setPortCounts w (fun c => { c with dropped := bump c.dropped }) p

/-- R130: a frame with a good check is matched, delivered, forwarded or not, and counted. -/
def matchFrame (w : Port) (x : WireFrame) (p : Part) : Part :=
  match winningFilter w x.frame p with
  | some i =>
    let q := deliver i x.frame p
    if (p.filter.filters.read i).forward then forwardFrame w x q else countConsumed w q
  | none =>
    match (matching w x.frame p).head? with
    | none => forwardFrame w x p
    | some i =>
      let q := overflowIntake i p
      if (p.filter.filters.read i).forward then forwardFrame w x q else countDropped w q

/-- R116, R117: a complete frame is judged by its check, and the receiver enters HUNT after it. -/
def receiveFrame (w : Port) (x : WireFrame) (p : Part) : Part :=
  if (portOf w p).rx.takesFrame && x.frame.wellFormed then
    let q := setReceiver w (fun r => { r with state := .hunt, runOn := true }) p
    if x.check = frameCheck x.frame then
      matchFrame w x (setPortCounts w (fun c => { c with received := bump c.received }) q)
    else countCheckError w q
  else p

/-! ## Editing filters and masks (R138, R139) -/

def Direction.ofCode : Nat → Option Direction
  | 0 => some .up
  | 1 => some .down
  | 2 => some .both
  | _ => none

def Direction.code : Direction → Byte
  | .up => 0
  | .down => 1
  | .both => 2

def Action.ofCode : Nat → Option Action
  | 0 => some .discard
  | 1 => some .management
  | 2 => some .calendar
  | 3 => some .figures
  | 4 => some .bells
  | 5 => some .poll
  | _ => none

def Action.code : Action → Byte
  | .discard => 0
  | .management => 1
  | .calendar => 2
  | .figures => 3
  | .bells => 4
  | .poll => 5

def setFilter (i : FilterIx) (f : Filter → Filter) (p : Part) : Part :=
  setFilterUnit (fun u => { u with filters := u.filters.update i f }) p

/-- R138: the contents that a FILTER WRITE gives. -/
def filterOf (f : Frame) (direction : Direction) (mask : Fin 4) (action : Action) : Filter :=
  { enabled := false, direction := direction, dest := f.payload.getD 3 0, self := f.arg 4 ≠ 0, source := f.payload.getD 5 0
    kind := f.payload.getD 6 0, selector := f.payload.getD 7 0, mask := mask, action := action, forward := f.arg 10 ≠ 0 }

/-- R138: a FILTER WRITE request of the right length. -/
def filterWriteRequest (e : IntakeEntry) (p : Part) : Part :=
  match index? 32 (e.frame.arg 1), Direction.ofCode (e.frame.arg 2), index? 4 (e.frame.arg 8), Action.ofCode (e.frame.arg 9) with
  | some i, some d, some m, some a =>
    if (p.filter.filters.read i).enabled then answer e .enabled [] p
    else answer e .done [] (setFilter i (fun _ => filterOf e.frame d m a) p)
  | _, _, _, _ => answer e .range [] p

/-- R138: some enabled filter selects the mask. -/
def maskInUse (m : Fin 4) (p : Part) : Bool := p.filter.filters.toList.any fun x => x.enabled && x.mask = m

def maskOf (f : Frame) : Mask :=
  { dest := f.payload.getD 2 0, source := f.payload.getD 3 0, kind := f.payload.getD 4 0, selector := f.payload.getD 5 0 }

/-- R138: a MASK WRITE request of the right length. -/
def maskWriteRequest (e : IntakeEntry) (p : Part) : Part :=
  match index? 4 (e.frame.arg 1) with
  | none => answer e .range [] p
  | some m =>
    if maskInUse m p then answer e .enabled [] p
    else answer e .done [] (setFilterUnit (fun u => { u with masks := u.masks.update m fun _ => maskOf e.frame }) p)

/-- R138: a filter's contents and its mask's compare masks, as FILTER READ sends them. -/
def filterBytes (x : Filter) (m : Mask) : List Byte :=
  [flagByte x.enabled, x.direction.code, x.dest, flagByte x.self, x.source, x.kind, x.selector, BitVec.ofNat 8 x.mask.val,
    x.action.code, flagByte x.forward, m.dest, m.source, m.kind, m.selector]

/-- R138: a FILTER READ request of the right length. -/
def filterReadRequest (e : IntakeEntry) (p : Part) : Part :=
  match index? 32 (e.frame.arg 1) with
  | none => answer e .range [] p
  | some i => answer e .done (filterBytes (p.filter.filters.read i) (p.filter.masks.read (p.filter.filters.read i).mask)) p

/-- R139: a FILTER ENABLE request of the right length. -/
def filterEnableRequest (e : IntakeEntry) (p : Part) : Part :=
  match index? 32 (e.frame.arg 1), e.frame.arg 2 with
  | some i, 0 => answer e .done [] (setFilter i (fun x => { x with enabled := false }) p)
  | some i, 1 => answer e .done [] (setFilter i (fun x => { x with enabled := true }) p)
  | _, _ => answer e .range [] p

/-! ## The meanings -/

/-- FRAME_RECEIVED (R117, R118, R130). -/
def execFrameReceived (port : Port) (frame : Frame) (check : BitVec 16) (s : State) : Host.Outcome State Fault Refusal :=
  s.run (whenRunning (receiveFrame port { frame := frame, check := check }))

/-- BAD_STOP_BIT (R118). -/
def execBadStopBit (port : Port) (s : State) : Host.Outcome State Fault Refusal := s.run (whenRunning (discardFrame port .hunt))

/-- LENGTH_ABOVE_32 (R118). -/
def execLengthAbove32 (port : Port) (length : Byte) (s : State) : Host.Outcome State Fault Refusal :=
  s.run (whenRunning (overlongFrame port length))

/-- RUN_ON_CHARACTER (R116). -/
def execRunOnCharacter (port : Port) (s : State) : Host.Outcome State Fault Refusal := s.run (whenRunning (runOn port))

/-- TRUNCATION (R118): the receiver is READY at once. -/
def execTruncation (port : Port) (s : State) : Host.Outcome State Fault Refusal := s.run (whenRunning (discardFrame port .ready))

/-- RECEIVER_READY (R116). -/
def execReceiverReady (port : Port) (s : State) : Host.Outcome State Fault Refusal := s.run (whenRunning (becomeReady port))

/-- DOWNLINE_BREAK (R120). -/
def execDownlineBreak (s : State) : Host.Outcome State Fault Refusal := s.run (whenRunning beginBreak)

/-- DOWNLINE_BREAK_END (R120). -/
def execDownlineBreakEnd (s : State) : Host.Outcome State Fault Refusal := s.run (whenRunning endBreak)

/-- FILTER_WRITE (R138). -/
def execFilterWrite (s : State) : Host.Outcome State Fault Refusal := s.run (whenRunning (onRequest .filterWrite filterWriteRequest))

/-- MASK_WRITE (R138). -/
def execMaskWrite (s : State) : Host.Outcome State Fault Refusal := s.run (whenRunning (onRequest .maskWrite maskWriteRequest))

/-- FILTER_READ (R138). -/
def execFilterRead (s : State) : Host.Outcome State Fault Refusal := s.run (whenRunning (onRequest .filterRead filterReadRequest))

/-- FILTER_ENABLE (R139). -/
def execFilterEnable (s : State) : Host.Outcome State Fault Refusal :=
  s.run (whenRunning (onRequest .filterEnable filterEnableRequest))

end Sys2Proof.Machine
end

