-- ==== Sys2Proof/Machine/Reset.lean ====
section
/-! DEFINITION. The three resets (R119, R125, R126, R170): how each begins, what is held while it lasts, and
the values with which the part leaves it. -/

namespace Sys2Proof.Machine

/-! ## Power-on (R126, R159) -/

/-- R126: the part after start-up. The levels at the guard inputs are not the part's to reset. -/
def powerOn (p : Part) : Part :=
  { Part.initial with guard := { GuardUnit.initial with inputs := p.guard.inputs }, freeUsed := p.freeUsed }

/-! ## While a reset lasts (R125, R126) -/

/-- R125, R126: a receiver abandons any frame in progress and takes no characters. -/
def Receiver.silenced : Receiver := { state := .hunt, runOn := false, inBreak := false }

def silenceReceivers (p : Part) : Part := setReceiver .upline (fun _ => Receiver.silenced) (setReceiver .downline (fun _ => Receiver.silenced) p)

/-- R125: both transmitters stop at once, cutting their frames short. -/
def cutTransmitters (p : Part) : Part :=
  setPort .upline (fun l => { l with tx := .ready }) (setPort .downline (fun l => { l with tx := .ready }) p)

/-- R119, R125, R126: a line break is detected. One that begins during a SOFT RESET turns it into an LBR;
one that continues causes no second. -/
def beginLineBreak (p : Part) : Part :=
  match p.phase with
  | .running => cutTransmitters (silenceReceivers { p with phase := .lineBreak, resetMs := 0 })
  | .softReset => cutTransmitters (silenceReceivers { p with phase := .lineBreak })
  | .lineBreak => p

/-- R126, R170: a SOFT RESET request of the right length is not answered and begins the reset. -/
def softResetRequest (_ : IntakeEntry) (p : Part) : Part :=
  silenceReceivers { p with phase := .softReset, resetMs := 0, resetHold := 0 }

/-! ## Leaving an LBR or a SOFT RESET (R125, R13, R80, R114) -/

/-- R3, R17: the clock, its state, the slew remainder and the last-fired stamp are kept. -/
def CalendarUnit.kept (c : CalendarUnit) : CalendarUnit :=
  { CalendarUnit.initial with clockState := c.clockState, clock := c.clock, slew := c.slew, stamp := c.stamp }

/-- R102: each line's taken level stands until the first sample. -/
def GuardUnit.kept (u : GuardUnit) : GuardUnit :=
  { lines := u.lines.each fun l => { GuardLine.initial with taken := l.taken }, awaitingSample := true, inputs := u.inputs }

/-- R169: a verify in flight is aborted; otherwise the result becomes NONE. An aborted result keeps its show and
has its counts at 0; its valid flag and its first fault, which the rule leaves open, are none (DESIGN CHOICE,
assumption log 41). -/
def VerifyUnit.afterReset (v : VerifyUnit) : VerifyUnit :=
  if v.result.state = .inProgress then
    { VerifyUnit.initial with result := { VerifyResult.initial with state := .aborted, showIx := v.result.showIx } }
  else VerifyUnit.initial

/-- R125, R159: every block takes its reset values; table memory, the capture record, the corrected-error
count and the clock are kept. -/
def resetBlocks (p : Part) : Part :=
  { Part.initial with
    table := p.table
    cal := p.cal.kept
    guard := p.guard.kept
    verify := p.verify.afterReset
    freeUsed := p.freeUsed }

/-- R80: the planner reads a figure's record as the reset ends. -/
def restFigure (k : FigIx) (p : Part) : Part :=
  let r := readFigure k figureResetWords p
  match r.1 with
  | some rec => setFigure k (fun g => { g with setpoint := rec.home }) r.2
  | none => r.2

/-- R80. The rule names no order of the figures; they are read in the order 0 to 15 (DESIGN CHOICE, assumption log
38). -/
def restFigures (p : Part) : Part := allFigures.foldl (fun q k => restFigure k q) p

/-- R13: the resumption check. -/
def resume (p : Part) : Part := if p.cal.clockState = .set then catchUp p else p

/-- R114: source 31 is latched first, so that its ATTENTION frame carries tag 0; the figure reads and the
resumption check follow. -/
def leaveReset (p : Part) : Part := resume (restFigures (latchEvent Source.resetOccurred (resetBlocks p)))

/-- R124: a transmitter that is sending a frame. -/
def Transmitter.busy : Transmitter → Bool
  | .ready => false
  | .sending _ => true
  | .spacing => false

/-- R126: both transmitters have finished. -/
def transmittersDone (p : Part) : Bool := !p.up.tx.busy && !p.down.tx.busy

def endLineBreak (p : Part) : Part := if p.phase = .lineBreak then leaveReset p else p

/-- R126, R170: in a SOFT RESET both transmitters have finished and the part has been held for 1 ms since. The
milliseconds of the hold are counted as time passes (assumption log 26). -/
def softResetOver (p : Part) : Bool := p.phase = .softReset && transmittersDone p && 1 ≤ p.resetHold

/-- R126: the end of a SOFT RESET at its hold. A space that began in it and has not yet lasted 2 ms does not hold it up:
the part leaves the SOFT RESET, and a break detected later begins an LBR of its own (DESIGN CHOICE, assumption log 26). -/
def endSoftReset (p : Part) : Part := if softResetOver p then leaveReset p else p

/-! ## The meanings -/

/-- POWER_ON_RESET (R126, R159). -/
def execPowerOnReset (s : State) : Host.Outcome State Fault Refusal := s.run powerOn

/-- LINE_BREAK_RESET (R119, R125). -/
def execLineBreakReset (s : State) : Host.Outcome State Fault Refusal := s.run beginLineBreak

/-- LBR_END (R125). -/
def execLbrEnd (s : State) : Host.Outcome State Fault Refusal := s.run endLineBreak

/-- SOFT_RESET_END (R126). -/
def execSoftResetEnd (s : State) : Host.Outcome State Fault Refusal := s.run endSoftReset

/-- SOFT_RESET (R170). -/
def execSoftReset (s : State) : Host.Outcome State Fault Refusal :=
  s.run (whenRunning (onRequest .softReset softResetRequest))

end Sys2Proof.Machine
end

