-- ==== Sys2Proof/Machine/Status.lean ====
section
/-! DEFINITION. STATUS READ (R166): the pages, their parts, and the clear option of page 3. -/

namespace Sys2Proof.Machine

/-- A value of `n` bytes that may be none, which is all ones. -/
def bytesOrOnes (n : Nat) (v : Option Nat) : List Byte :=
  match v with
  | some x => bytesOf n x
  | none => List.replicate n 0xFF

def countBytes (ns : List Nat) : List Byte := ns.flatMap (bytesOf 2)

/-! ## Page 0 (R3, R21) -/

def ClockState.code : ClockState → Byte
  | .unset => 0
  | .set => 1

/-- Page 0, part 0. -/
def clockPage (c : CalendarUnit) : List Byte :=
  let d := c.clock
  c.clockState.code :: bytesOf 2 d.year ++
    [BitVec.ofNat 8 d.month, BitVec.ofNat 8 d.day, BitVec.ofNat 8 d.hour, BitVec.ofNat 8 d.minute, BitVec.ofNat 8 d.second] ++
    bytesOf 2 d.milli ++ [BitVec.ofNat 8 d.weekday] ++ bytesOf 2 (twosComplement 16 c.slew) ++ [flagByte c.stamp.isSome] ++
    bytesOrOnes 2 (c.stamp.map DateTime.year) ++ bytesOrOnes 1 (c.stamp.map DateTime.month) ++
    bytesOrOnes 1 (c.stamp.map DateTime.day) ++ bytesOrOnes 1 (c.stamp.map DateTime.hour) ++
    bytesOrOnes 1 (c.stamp.map DateTime.minute)

def SlotState.code : SlotState → Byte
  | .idle => 0
  | .running => 1
  | .held => 2

def StartSource.code : StartSource → Nat
  | .management => 0
  | .calendar => 1
  | .timer => 2

/-- R21: a busy slot's show, start source, season rank, reps, r and T. -/
def busyBytes (x : Slot) (now : Nat) : List Byte :=
  [BitVec.ofNat 8 x.showIx.val, BitVec.ofNat 8 x.source.code, BitVec.ofNat 8 x.rank, BitVec.ofNat 8 x.reps,
    BitVec.ofNat 8 (x.rep now)] ++ bytesOf 4 (x.time now)

/-- R21: a slot's pending start, or none; the last four bytes give the line time left until its expiry. -/
def waitingBytes (x : Slot) (now : Nat) : List Byte :=
  flagByte x.waiting.isSome :: bytesOrOnes 1 (x.waiting.map fun w => w.showIx.val) ++
    bytesOrOnes 1 (x.waiting.map fun w => w.source.code) ++ bytesOrOnes 1 (x.waiting.map PendingStart.rank) ++
    bytesOrOnes 4 (x.waiting.map fun w => w.expiry - now)

/-- Page 0, parts 1..3. The fields of an IDLE slot have no meaning: they are free bytes (assumption log 4). -/
def slotPage (i : SlotIx) (p : Part) : List Byte × Part :=
  let x := p.slots.read i
  if x.busy then (x.state.code :: busyBytes x p.lineTime ++ waitingBytes x p.lineTime, p)
  else
    let d := drawBytes 9 p
    (x.state.code :: d.1 ++ waitingBytes x p.lineTime, d.2)

/-! ## Page 1 (R58, R100) -/

/-- Page 1, parts 0..15. -/
def figurePage (g : LiveFigure) : List Byte :=
  [BitVec.ofNat 8 g.state.code] ++ bytesOrOnes 1 (g.owner.map Fin.val) ++ [BitVec.ofNat 8 g.fault.code] ++
    bytesOf 2 (twosComplement 16 g.setpoint) ++ [flagByte g.reported.isSome] ++
    bytesOrOnes 2 (g.reported.map (twosComplement 16)) ++ [g.hold, flagByte g.lag]

/-- Page 1, parts 16..21: eight bells from bell 8 × (part − 16). -/
def bellPage (part : Nat) (p : Part) : List Byte :=
  ((p.strikes.bells.toList.drop (8 * (part - 16))).take 8).flatMap fun b => b.health.code :: bytesOf 2 b.heat

/-! ## Page 2 (R64, R134, R135, R140) -/

def ReleaseMode.code : ReleaseMode → Byte
  | .free => 0
  | .polled => 1

/-- Page 2, part 0. -/
def queuePage (p : Part) : List Byte :=
  let o := p.out
  let u := p.filter
  ([o.guard.length, o.strike.length, o.motion.length, o.passDn.length, o.report.length, o.passUp.length, p.strikes.queue.length,
    u.management.entries.length, u.calendar.entries.length, u.figures.entries.length, u.bells.entries.length].map (BitVec.ofNat 8)) ++
    [o.mode.code, BitVec.ofNat 8 o.mark] ++
    [u.management, u.calendar, u.figures, u.bells].flatMap fun q => bytesOrOnes 1 (q.rejected.map Fin.val)

/-! ## Page 3 -/

def portCounts (c : PortCounts) : List Nat := [c.received, c.forwarded, c.consumed, c.dropped, c.checkErrors]

def lineCounts (p : Part) : List Nat := portCounts p.up.counts ++ portCounts p.down.counts ++ [p.counts.passDrop]

def partCounts (p : Part) : List Nat :=
  [p.filter.management.overflow, p.filter.calendar.overflow, p.filter.figures.overflow, p.filter.bells.overflow,
    p.cal.timeRejected, p.counts.brakeDrop, p.counts.replyDrop, p.table.corrected, p.counts.motionSkip, p.counts.positionUnmatched]

def noteCounts (p : Part) : List Nat :=
  let c := p.counts
  [c.shadowed, c.noSubstitute, c.merged, c.queueFull, c.late, c.degraded, c.hot, c.coilUnmatched, c.noBell, c.barrelError, c.recordError]

def PortCounts.zero : PortCounts := { received := 0, forwarded := 0, consumed := 0, dropped := 0, checkErrors := 0 }

/-- R166: every counter of the three parts of page 3 is set to 0. -/
def clearCounters (p : Part) : Part :=
  { p with
    up := { p.up with counts := PortCounts.zero }
    down := { p.down with counts := PortCounts.zero }
    filter := { p.filter with
      management := { p.filter.management with overflow := 0 }
      calendar := { p.filter.calendar with overflow := 0 }
      figures := { p.filter.figures with overflow := 0 }
      bells := { p.filter.bells with overflow := 0 } }
    cal := { p.cal with timeRejected := 0 }
    table := { p.table with corrected := 0 }
    counts := Counts.initial }

/-! ## Page 4 (R169) -/

def VerifyState.code : VerifyState → Byte
  | .none => 0
  | .inProgress => 1
  | .done => 2
  | .aborted => 3

def VerifyFault.code : VerifyFault → Nat
  | .invalidPointer => 0
  | .bellAbove47 => 1
  | .spanTooSmall => 2
  | .keyframeCount => 3
  | .keyframeTime => 4
  | .keyframePosition => 5

/-- Page 4, part 0, when a verify has been taken since the last power-on reset. -/
def verifyBytes (v : VerifyResult) : List Byte :=
  [v.state.code, BitVec.ofNat 8 v.showIx.val] ++ bytesOrOnes 1 (v.valid.map fun b => if b then 1 else 0) ++
    bytesOf 2 v.wordsRead ++ bytesOf 2 v.uncorrectable ++ bytesOf 2 v.faults ++
    bytesOrOnes 1 (v.first.map fun f => f.1.code) ++ bytesOrOnes 2 (v.first.map Prod.snd)

/-! ## The request -/

/-- R166: the data of a page's part, or none when the page or the part does not exist. -/
def statusPage (page part : Nat) (p : Part) : Option (List Byte × Part) :=
  match page with
  | 0 =>
    match part with
    | 0 => some (clockPage p.cal, p)
    | n + 1 => (index? 3 n).map fun i => slotPage i p
  | 1 =>
    match index? 16 part with
    | some k => some (figurePage (p.figures.read k), p)
    | none => if part ≤ 21 then some (bellPage part p, p) else none
  | 2 => if part = 0 then some (queuePage p, p) else none
  | 3 =>
    match part with
    | 0 => some (countBytes (lineCounts p), p)
    | 1 => some (countBytes (partCounts p), p)
    | 2 => some (countBytes (noteCounts p), p)
    | _ => none
  | 4 => if part = 0 then some (verifyBytes p.verify.result, p) else none
  | _ => none

/-- R166: a STATUS READ request of the right length. -/
def statusReadRequest (e : IntakeEntry) (p : Part) : Part :=
  let clear := e.frame.arg 3 ≠ 0
  if clear && e.frame.arg 1 ≠ 3 then answer e .range [] p
  else
    match statusPage (e.frame.arg 1) (e.frame.arg 2) p with
    | none => answer e .range [] p
    | some (d, q) => answer e .done d (if clear then clearCounters q else q)

/-- STATUS_READ (R166). -/
def execStatusRead (s : State) : Host.Outcome State Fault Refusal := s.run (whenRunning (onRequest .statusRead statusReadRequest))

end Sys2Proof.Machine
end

