-- ==== Sys2Proof/Machine/Tables.lean ====
section
/-! DEFINITION. Table access by the management unit (TABLE WRITE, TABLE READ, ERROR READ), and the entries
of the MANAGEMENT intake queue that name no request (R162). -/

namespace Sys2Proof.Machine

/-! ## Table access (R164, R165) -/

/-- R164, R165: `count` words at consecutive addresses from `base` lie within table memory. -/
def withinTable (base count : Nat) : Bool := base + count ≤ lastTableWord + 1

/-- A payload's bytes as words of four bytes, most significant first; a last group of fewer is not a word. -/
def wordsOfBytes : List Byte → List Word
  | a :: b :: c :: d :: rest => (a ++ b ++ c ++ d) :: wordsOfBytes rest
  | _ => []

/-- R164: the words a TABLE WRITE carries. -/
def writtenWords (f : Frame) : List Word := wordsOfBytes (f.payload.drop 3)

/-- R153: the words take their new data bits in one event. -/
def writeTable (base : Nat) (ws : List Word) (p : Part) : Part :=
  { p with table := { p.table with words := writeWords base ws p.table.words } }

/-- R164: a TABLE WRITE request of the right length. -/
def tableWriteRequest (e : IntakeEntry) (p : Part) : Part :=
  let base := e.frame.number 1 2
  let ws := writtenWords e.frame
  if withinTable base ws.length then answer e .done [] (writeTable base ws p) else answer e .range [] p

/-- R165: the data of the words read, an uncorrectable one as zero. -/
def readBytes (ws : List (Option Word)) : List Byte := ws.flatMap fun w => bytesOf 4 (w.getD 0).toNat

/-- R165: TABLE when some word was uncorrectable. -/
def readResult (ws : List (Option Word)) : Result := if ws.all Option.isSome then .done else .table

/-- R165: a TABLE READ request of the right length. -/
def tableReadRequest (e : IntakeEntry) (p : Part) : Part :=
  let base := e.frame.number 1 2
  let count := e.frame.arg 3
  if 1 ≤ count && count ≤ 7 && withinTable base count then
    let r := readEach .management ((List.range count).map (base + ·)) p
    answer e (readResult r.1) (readBytes r.1) r.2
  else answer e .range [] p

/-! ## ERROR READ (R158) -/

def CaptureKind.code : CaptureKind → Byte
  | .empty => 0
  | .corrected => 1
  | .uncorrectable => 2

def Reader.code : Reader → Byte
  | .barrel => 0
  | .path => 1
  | .record => 2
  | .calendar => 3
  | .management => 4
  | .verify => 5

/-- R157, R158: the capture record as ERROR READ sends it. Of a record of kind NONE the address, the
position and the reader have no meaning: they are free bytes (assumption log 4). -/
def captureBytes (p : Part) : List Byte × Part :=
  let c := p.table.capture
  match c.kind with
  | .empty =>
    let d := drawBytes 4 p
    (c.kind.code :: d.1 ++ [0], d.2)
  | .corrected | .uncorrectable =>
    (c.kind.code :: bytesOf 2 c.address ++ [BitVec.ofNat 8 (c.position.getD 255), c.reader.code, flagByte c.repeated], p)

/-- R158: the record is set to kind NONE with the repeat flag clear. -/
def clearCapture (p : Part) : Part :=
  { p with table := { p.table with capture := { p.table.capture with kind := .empty, repeated := false } } }

/-- R158: an ERROR READ request of the right length. -/
def errorReadRequest (e : IntakeEntry) (p : Part) : Part :=
  let d := captureBytes p
  answer e .done (d.1 ++ bytesOf 2 p.table.corrected) (if e.frame.arg 1 = 0 then d.2 else clearCapture d.2)

/-! ## Entries that name no request (R162) -/

/-- R162, case 1. -/
def emptyRequestEntry (f : Frame) : Bool := f.kind = Kind.request && f.payload.isEmpty

/-- R162, case 2. -/
def unknownRequestEntry (f : Frame) : Bool := f.kind = Kind.request && !f.payload.isEmpty && f.request = none

/-- R135, R162: the entry's filter hit becomes the MANAGEMENT queue's last rejected filter. -/
def rejectManagement (e : IntakeEntry) (p : Part) : Part :=
  { p with filter := { p.filter with management := { p.filter.management with rejected := some e.hit } } }

/-! ## The meanings -/

/-- TABLE_WRITE (R164). -/
def execTableWrite (s : State) : Host.Outcome State Fault Refusal := s.run (whenRunning (onRequest .tableWrite tableWriteRequest))

/-- TABLE_READ (R165). -/
def execTableRead (s : State) : Host.Outcome State Fault Refusal := s.run (whenRunning (onRequest .tableRead tableReadRequest))

/-- ERROR_READ (R158). -/
def execErrorRead (s : State) : Host.Outcome State Fault Refusal := s.run (whenRunning (onRequest .errorRead errorReadRequest))

/-- UNKNOWN_REQUEST (R162, case 2). -/
def execUnknownRequest (s : State) : Host.Outcome State Fault Refusal :=
  s.run (whenRunning (takeManagement unknownRequestEntry fun e => answer e .unknown []))

/-- EMPTY_REQUEST (R162, case 1): the reply's request code is 0. -/
def execEmptyRequest (s : State) : Host.Outcome State Fault Refusal :=
  s.run (whenRunning (takeManagement emptyRequestEntry fun e => answer e .length []))

/-- NON_REQUEST_ENTRY_DISCARDED (R162). -/
def execNonRequestEntryDiscarded (s : State) : Host.Outcome State Fault Refusal :=
  s.run (whenRunning (takeManagement (fun f => f.kind ≠ Kind.request) rejectManagement))

end Sys2Proof.Machine
end

