-- ==== Sys2Proof/Machine/Transmit.lean ====
section
/-! DEFINITION. The transmitters (R124) and the outbound queue unit's choices (chapter 09), and QUEUE FLUSH. -/

namespace Sys2Proof.Machine

/-! ## Choosing (R141, R142, R144, R145) -/

/-- The downline queues (R144). -/
inductive DownQueue where
  | guard | strike | motion | passDn
  deriving DecidableEq, Repr

/-- Of the queues with an eligible head, given in natural order with their levels, the first of the highest
level (R141). -/
def highest {α : Type} : List (α × Nat × Bool) → Option (α × Nat)
  | [] => none
  | (a, level, eligible) :: rest =>
    match highest rest with
    | none => if eligible then some (a, level) else none
    | some (b, l) => if eligible && l ≤ level then some (a, level) else some (b, l)

/-- R144: the queue the downline transmitter takes its frame from. -/
def chooseDown (o : Outbound) : Option DownQueue :=
  if !o.guard.isEmpty then some .guard
  else (highest [(DownQueue.strike, o.levels.strike, !o.strike.isEmpty), (.motion, o.levels.motion, !o.motion.isEmpty),
    (.passDn, o.levels.passDn, !o.passDn.isEmpty)]).map Prod.fst

/-- R142: OQ-REPORT has an eligible head. -/
def reportEligible (o : Outbound) : Bool := !o.report.isEmpty && (o.mode = .free || 1 ≤ o.mark)

/-- R145: whether the upline transmitter takes OQ-REPORT (true) or OQ-PASSUP. -/
def chooseUp (o : Outbound) : Option Bool :=
  (highest [(true, o.levels.report, reportEligible o), (false, o.levels.passUp, !o.passUp.isEmpty)]).map Prod.fst

/-! ## Transmit start (R124, R144 to R146) -/

/-- R124: the transmitter enters SENDING with a frame. -/
def sendOn (w : Port) (x : WireFrame) (p : Part) : Part := setPort w (fun l => { l with tx := .sending x }) p

/-- R117: a frame the part originates is sent with the check of its final contents. -/
def sendOwn (w : Port) (f : Frame) (p : Part) : Part := sendOn w { frame := f, check := frameCheck f } p

/-- R146: the head of OQ-STRIKE is taken and completed; the place it frees lets due strikes be released in
the same event. The answer says whether a frame was sent. -/
def startHammer (e : StrikeFrame) (rest : List StrikeFrame) (p : Part) : Bool × Part :=
  let r := completeStrike e (setOut (fun o => { o with strike := rest }) p)
  match r.1 with
  | some f => (true, releaseDue (sendOwn .downline f r.2))
  | none => (false, releaseDue r.2)

/-- R144, R146: one choice of the downline transmitter. The answer says whether to choose again at once, as
it does after a completion that sends nothing. -/
def chooseOnce (p : Part) : Bool × Part :=
  match chooseDown p.out with
  | none => (false, p)
  | some .guard =>
    match p.out.guard with
    | [] => (false, p)
    | f :: rest => (false, sendOwn .downline f (setOut (fun o => { o with guard := rest }) p))
  | some .strike =>
    match p.out.strike with
    | [] => (false, p)
    | e :: rest =>
      let r := startHammer e rest p
      (!r.1, r.2)
  | some .motion =>
    match p.out.motion with
    | [] => (false, p)
    | m :: rest => (false, sendOwn .downline m.frame (setOut (fun o => { o with motion := rest }) p))
  | some .passDn =>
    match p.out.passDn with
    | [] => (false, p)
    | x :: rest => (false, sendOn .downline x (setOut (fun o => { o with passDn := rest }) p))

/-- R146: the transmitter chooses again at once after a completion that sends nothing. `fuel` bounds the
completions by the strikes there are. -/
def chooseLoop : Nat → Part → Part
  | 0, p => p
  | fuel + 1, p =>
    let r := chooseOnce p
    if r.1 then chooseLoop fuel r.2 else r.2

/-- R144: the READY downline transmitter chooses a frame. -/
def startDownline (p : Part) : Part :=
  if p.down.tx = .ready then chooseLoop (p.out.strike.length + p.strikes.queue.length + 1) p else p

/-- R143: an entry leaves OQ-REPORT; in POLLED mode the release mark falls by one. -/
def Outbound.takeReport (o : Outbound) (rest : List Frame) : Outbound :=
  { o with report := rest, mark := if o.mode = .polled then o.mark - 1 else o.mark }

/-- R145: the READY upline transmitter chooses a frame. -/
def startUpline (p : Part) : Part :=
  if p.up.tx = .ready then
    match chooseUp p.out with
    | none => p
    | some true =>
      match p.out.report with
      | [] => p
      | f :: rest => sendOwn .upline f (setOut (·.takeReport rest) p)
    | some false =>
      match p.out.passUp with
      | [] => p
      | x :: rest => sendOn .upline x (setOut (fun o => { o with passUp := rest }) p)
  else p

/-- R124: after the last check character the transmitter enters SPACING. A SOFT RESET lets it finish
(R126). -/
def Transmitter.sent : Transmitter → Transmitter
  | .ready => .ready
  | .sending _ => .spacing
  | .spacing => .spacing

/-- R124: after 40 µs at mark the transmitter enters READY. -/
def Transmitter.spaced : Transmitter → Transmitter
  | .ready => .ready
  | .sending x => .sending x
  | .spacing => .ready

/-! ## QUEUE FLUSH (R148, R149) -/

/-- The queues by the codes of the request (12_frame_and_record_layouts). -/
inductive QueueName where
  | guard | strike | motion | passDn | report | passUp
  deriving DecidableEq, Repr

def QueueName.ofCode : Nat → Option QueueName
  | 0 => some .guard
  | 1 => some .strike
  | 2 => some .motion
  | 3 => some .passDn
  | 4 => some .report
  | 5 => some .passUp
  | _ => none

def Outbound.lengthOf (o : Outbound) : QueueName → Nat
  | .guard => o.guard.length
  | .strike => o.strike.length
  | .motion => o.motion.length
  | .passDn => o.passDn.length
  | .report => o.report.length
  | .passUp => o.passUp.length

/-- R143, R148: the queue named is emptied; a flush of OQ-REPORT clears the release mark. -/
def Outbound.flush (o : Outbound) : QueueName → Outbound
  | .guard => { o with guard := [] }
  | .strike => { o with strike := [] }
  | .motion => { o with motion := [] }
  | .passDn => { o with passDn := [] }
  | .report => { o with report := [], mark := 0 }
  | .passUp => { o with passUp := [] }

/-- R148: some figure is DRIVEN or HOMING. -/
def figuresMoving (p : Part) : Bool := p.figures.toList.any fun g => g.state = .driven || g.state = .homing

/-- R148: a QUEUE FLUSH request of the right length. A flush of OQ-STRIKE frees places, so due strikes are
released (R149). -/
def queueFlushRequest (e : IntakeEntry) (p : Part) : Part :=
  match QueueName.ofCode (e.frame.arg 1) with
  | none => answer e .range [] p
  | some name =>
    if name = .motion && figuresMoving p then answer e .state [] p
    else
      let q := setOut (·.flush name) p
      answer e .done [BitVec.ofNat 8 (e.frame.arg 1), BitVec.ofNat 8 (p.out.lengthOf name)]
        (if name = .strike then releaseDue q else q)

/-! ## The meanings -/

/-- DOWNLINE_TRANSMIT_START (R144, R146). -/
def execDownlineTransmitStart (s : State) : Host.Outcome State Fault Refusal := s.run (whenRunning startDownline)

/-- UPLINE_TRANSMIT_START (R145). -/
def execUplineTransmitStart (s : State) : Host.Outcome State Fault Refusal := s.run (whenRunning startUpline)

/-- FRAME_SENT (R124, R126). -/
def execFrameSent (port : Port) (s : State) : Host.Outcome State Fault Refusal :=
  s.run (setPort port fun l => { l with tx := l.tx.sent })

/-- SPACING_END (R124). -/
def execSpacingEnd (port : Port) (s : State) : Host.Outcome State Fault Refusal :=
  s.run (setPort port fun l => { l with tx := l.tx.spaced })

/-- QUEUE_FLUSH (R148). -/
def execQueueFlush (s : State) : Host.Outcome State Fault Refusal := s.run (whenRunning (onRequest .queueFlush queueFlushRequest))

end Sys2Proof.Machine
end

