-- ==== Sys2Proof/Machine/Verify.lean ====
section
/-! DEFINITION. VERIFY SHOW (R167) and its sweep (R168, R169). What each read of the sweep means is a plain
function of what the sweep has read so far; the choices the rule leaves are in assumption log 13. -/

namespace Sys2Proof.Machine

/-! ## What the sweep has read of the show entry -/

/-- Word `k` of the show entry, none when it was uncorrectable. -/
def VerifySweep.entryWord (x : VerifySweep) (k : Nat) : Option Word := x.entry.getD k none

/-- Byte `b` of the show entry. -/
def VerifySweep.entryByte (x : VerifySweep) (b : Nat) : Option Nat := (x.entryWord (b / 4)).map fun w => byteAt w (b % 4)

/-- The two-byte field at bytes b and b + 1 of the show entry, none when a word that holds it was
uncorrectable. -/
def VerifySweep.entryHalf (x : VerifySweep) (b : Nat) : Option Nat :=
  match x.entryByte b, x.entryByte (b + 1) with
  | some h, some l => some (h * 256 + l)
  | _, _ => none

def VerifySweep.barrelPointer (x : VerifySweep) : Option Nat := x.entryHalf 8
def VerifySweep.pathPointer (x : VerifySweep) (i : Nat) : Option Nat := x.entryHalf (21 + 5 * i)

/-- The figure of item `i`, its index read clamped. -/
def VerifySweep.itemFigure (x : VerifySweep) (i : Nat) : Option FigIx := (x.entryByte (20 + 5 * i)).map (clampIx 15)

/-- R168: the figure items swept, none when the word that holds their count is uncorrectable. -/
def VerifySweep.items (x : VerifySweep) : Nat := min ((x.entryByte 3).getD 0) 8

/-- The entry words that hold the barrel pointer and the first byte of item `i`'s path pointer, at which an
invalid pointer is found. -/
def barrelPointerWord (show_ : ShowIx) : Nat := showBase show_ + 2
def pathPointerWord (show_ : ShowIx) (i : Nat) : Nat := showBase show_ + (21 + 5 * i) / 4

/-- R152: the pointer names a barrel whose header lies in table memory. -/
def barrelStartsWell (pointer : Nat) : Bool := inHeap pointer && pointer + 1 ≤ lastTableWord

/-! ## The order of the sweep (R168) -/

/-- The place at which item `i` or a later one has its first read; `fuel` counts the items left to try. -/
def VerifySweep.fromItem (x : VerifySweep) : Nat → Nat → SweepPosition
  | 0, _ => .finished
  | fuel + 1, i =>
    if x.items ≤ i then .finished
    else if (x.itemFigure i).isSome then .figure i 0
    else if (x.pathPointer i).any inHeap then .pathHeader i
    else x.fromItem fuel (i + 1)

/-- The sweep goes on to item `i`, whose soft limits are not yet known. -/
def VerifySweep.toItem (x : VerifySweep) (i : Nat) : VerifySweep := { x with position := x.fromItem 8 i, limits := none }

/-- The sweep goes on to the path of item `i`, or past it. -/
def VerifySweep.toPath (x : VerifySweep) (i : Nat) : VerifySweep :=
  if (x.pathPointer i).any inHeap then { x with position := .pathHeader i } else x.toItem (i + 1)

/-- The barrel header as far as it was read. -/
def VerifySweep.barrel (x : VerifySweep) : BarrelHeader := barrelHeader fun k => (x.header.getD k none).getD 0

/-- The address of the next read. -/
def VerifySweep.address (x : VerifySweep) (show_ : ShowIx) : Nat :=
  match x.position with
  | .entry k => showBase show_ + k
  | .header k => x.barrelPointer.getD 0 + k
  | .rowMap k => x.barrelPointer.getD 0 + 2 + k
  | .row r k => x.barrel.rowStart (x.barrelPointer.getD 0) r + k
  | .figure i k => figureBase ((x.itemFigure i).getD 0) + k
  | .pathHeader i => (x.pathPointer i).getD 0
  | .keyframe i j => (x.pathPointer i).getD 0 + 1 + j
  | .finished => 0

/-! ## What each read finds (R168) -/

/-- A fault found, with the word at which it is found. -/
abbrev Finding := VerifyFault × Nat

/-- A finding when `found` holds. -/
def finding (found : Bool) (kind : VerifyFault) (a : Nat) : List Finding := if found then [(kind, a)] else []

/-- The invalid pointers that the show entry alone shows, the barrel's first and then the items' in order (DESIGN CHOICE,
assumption log 13). -/
def VerifySweep.pointerFindings (x : VerifySweep) (show_ : ShowIx) : List Finding :=
  finding (x.barrelPointer.any fun b => b ≠ 0 && !barrelStartsWell b) .invalidPointer (barrelPointerWord show_) ++
    (List.range x.items).flatMap fun i =>
      finding ((x.pathPointer i).any fun b => !inHeap b) .invalidPointer (pathPointerWord show_ i)

/-- A word of the show entry. -/
def VerifySweep.meetEntry (x : VerifySweep) (show_ : ShowIx) (k : Nat) (w : Option Word) : List Finding × VerifySweep :=
  let y := { x with entry := x.entry ++ [w] }
  if k < 15 then ([], { y with position := .entry (k + 1) })
  else
    (y.pointerFindings show_, if y.barrelPointer.any barrelStartsWell then { y with position := .header 0 } else y.toItem 0)

/-- A word of the barrel header. With its second word uncorrectable the extent is that of the least span. Of two faults
found by one read the invalid pointer comes before the span, and with the first word uncorrectable neither
the extent nor the span is judged and no fault found (DESIGN CHOICE, assumption log 13). -/
def VerifySweep.meetHeader (x : VerifySweep) (show_ : ShowIx) (k a : Nat) (w : Option Word) : List Finding × VerifySweep :=
  let y := { x with header := x.header ++ [w] }
  if k = 0 then ([], { y with position := .header 1 })
  else if (y.header.getD 0 none).isNone then ([], y.toItem 0)
  else
    let h := y.barrel
    let beyond : Bool := lastTableWord < h.lastWord (y.barrelPointer.getD 0)
    let short : Bool := w.any fun v => halfAt v 1 < leastSpan h.steps h.size
    (finding beyond .invalidPointer (barrelPointerWord show_) ++ finding short .spanTooSmall a,
      if beyond then y.toItem 0 else { y with position := .rowMap 0 })

/-- Whether the rows are swept: both header words and every row map word have read well. -/
def VerifySweep.rowsKnown (x : VerifySweep) : Bool := x.mapGood && (x.header.getD 1 none).isSome

/-- A word of the row map. -/
def VerifySweep.meetRowMap (x : VerifySweep) (k a : Nat) (w : Option Word) : List Finding × VerifySweep :=
  let h := x.barrel
  let y := { x with mapGood := x.mapGood && w.isSome }
  ((List.range 4).flatMap fun b => finding (4 * k + b < h.rows && w.any fun v => 47 < byteAt v b) .bellAbove47 a,
    if k + 1 < h.mapWords then { y with position := .rowMap (k + 1) }
    else if y.rowsKnown then { y with position := .row 0 0 } else y.toItem 0)

/-- A word of a row that holds elements. -/
def VerifySweep.meetRow (x : VerifySweep) (r k : Nat) : VerifySweep :=
  let h := x.barrel
  if k + 1 < leastSpan h.steps h.size then { x with position := .row r (k + 1) }
  else if r + 1 < h.rows then { x with position := .row (r + 1) 0 }
  else x.toItem 0

/-- A word of an item's figure record; its third word holds the soft limits. -/
def VerifySweep.meetFigure (x : VerifySweep) (i k : Nat) (w : Option Word) : VerifySweep :=
  let y := if k = 2 then
      { x with limits := w.map fun v => ((figureRecord fun _ => v).lower, (figureRecord fun _ => v).upper) }
    else x
  if k < 7 then { y with position := .figure i (k + 1) } else y.toPath i

/-- A path header. Of two faults found by one read the invalid pointer comes before the keyframe count, and with the header
uncorrectable no extent is judged and no invalid pointer found (DESIGN CHOICE, assumption log 13). -/
def VerifySweep.meetPathHeader (x : VerifySweep) (show_ : ShowIx) (i a : Nat) (w : Option Word) : List Finding × VerifySweep :=
  match w with
  | none => ([], x.toItem (i + 1))
  | some v =>
    let beyond : Bool := lastTableWord < a + keyframeCount v
    (finding beyond .invalidPointer (pathPointerWord show_ i) ++
        finding (byteAt v 0 < 2 || 32 < byteAt v 0) .keyframeCount a,
      if beyond then x.toItem (i + 1)
      else { x with position := .keyframe i 0, count := keyframeCount v, previous := none })

/-- A keyframe word. After an uncorrectable one no keyframe time fault is judged for the keyframe that follows, and of
two faults found by one read the time comes before the position (DESIGN CHOICE, assumption log 13). -/
def VerifySweep.meetKeyframe (x : VerifySweep) (i j a : Nat) (w : Option Word) : List Finding × VerifySweep :=
  let key := w.map keyframeOf
  let y := { x with previous := key.map Prod.fst }
  (finding (key.any fun f => x.previous.any fun t => f.1 ≤ t) .keyframeTime a ++
      finding (key.any fun f => x.limits.any fun l => f.2 < l.1 || l.2 < f.2) .keyframePosition a,
    if j + 1 < x.count then { y with position := .keyframe i (j + 1) } else y.toItem (i + 1))

/-- The word read at the sweep's position from address `a`. -/
def VerifySweep.meet (x : VerifySweep) (show_ : ShowIx) (a : Nat) (w : Option Word) : List Finding × VerifySweep :=
  match x.position with
  | .entry k => x.meetEntry show_ k w
  | .header k => x.meetHeader show_ k a w
  | .rowMap k => x.meetRowMap k a w
  | .row r k => ([], x.meetRow r k)
  | .figure i k => ([], x.meetFigure i k w)
  | .pathHeader i => x.meetPathHeader show_ i a w
  | .keyframe i j => x.meetKeyframe i j a w
  | .finished => ([], x)

/-! ## The sweep (R168, R169) -/

/-- R169: the result after one read: the word counted, and the valid flag when it is the entry's first. -/
def VerifyResult.counted (v : VerifyResult) (x : VerifySweep) (w : Option Word) (found : List Finding) : VerifyResult :=
  { v with
    valid := if x.position = .entry 0 then w.map fun u => byteAt u 0 ≠ 0 else v.valid
    wordsRead := v.wordsRead + 1
    uncorrectable := v.uncorrectable + if w.isNone then 1 else 0
    faults := v.faults + found.length
    first := v.first.or found.head? }

/-- R169: the last word has been read. -/
def finishVerify (p : Part) : Part :=
  latchEvent Source.verifyDone
    { p with verify := { p.verify with result := { p.verify.result with state := .done } } }

/-- R168: one read of the sweep. -/
def sweepRead (p : Part) : Part :=
  let x := p.verify.sweep
  let a := x.address p.verify.result.showIx
  let r := readWord .verify a p
  let m := x.meet p.verify.result.showIx a r.1
  let q := { r.2 with verify := { result := p.verify.result.counted x r.1 m.1, sweep := m.2 } }
  if m.2.position = .finished then finishVerify q else q

/-- R168: the reads of one millisecond. -/
def sweepReads : Nat := 1024

/-- `n` reads, or as many as there are until the sweep is over. -/
def sweepLoop : Nat → Part → Part
  | 0, p => p
  | n + 1, p => if p.verify.result.state = .inProgress then sweepLoop n (sweepRead p) else p

/-- R167: the result of a verify that has begun. Until the first word has been read the valid flag is none: no rule
gives it a value (DESIGN CHOICE, assumption log 41). -/
def VerifyResult.begun (show_ : ShowIx) : VerifyResult := { VerifyResult.initial with state := .inProgress, showIx := show_ }

/-- R167: a VERIFY SHOW request of the right length. -/
def verifyShowRequest (e : IntakeEntry) (p : Part) : Part :=
  match index? 32 (e.frame.arg 1) with
  | none => answer e .range [] p
  | some show_ =>
    if p.verify.result.state = .inProgress then answer e .busy [] p
    else answer e .done []
      { p with verify := { result := VerifyResult.begun show_, sweep := { VerifySweep.initial with position := .entry 0 } } }

/-! ## The meanings -/

/-- VERIFY_SWEEP (R168, R169). -/
def execVerifySweep (s : State) : Host.Outcome State Fault Refusal := s.run (whenRunning (sweepLoop sweepReads))

/-- VERIFY_SHOW (R167). -/
def execVerifyShow (s : State) : Host.Outcome State Fault Refusal := s.run (whenRunning (onRequest .verifyShow verifyShowRequest))

end Sys2Proof.Machine
end

