-- ==== Sys2Proof/Machine/Clocking.lean ====
section
/-! DEFINITION. What the part does of itself when no command waits (DESIGN CHOICE, assumption log 14): the
first command that is due in the present state is put on the queue, and when none is due a millisecond
passes. Bit times are left out, so frames never arrive, end or break off by themselves. -/

namespace Sys2Proof.Machine

/-! ## Commands that are due in the present state -/

/-- R19: the command for a TIMER CONTROL action; an action that is not listed is taken by any of them. -/
def timerCommand (action : Nat) : Instr :=
  match action with
  | 1 => .timerStop
  | 2 => .timerStep
  | 3 => .timerTransfer
  | 4 => .timerSetReload
  | 5 => .timerSetBinding
  | _ => .timerRun

/-- The command that carries out a request. -/
def requestCommand (r : Request) (f : Frame) : Instr :=
  match r with
  | .tableWrite => .tableWrite
  | .tableRead => .tableRead
  | .applyConfig => .applyConfig
  | .filterWrite => .filterWrite
  | .maskWrite => .maskWrite
  | .filterEnable => .filterEnable
  | .filterRead => .filterRead
  | .showStart => .showStart
  | .showStop => .showStop
  | .showHold => .showHold
  | .showResume => .showResume
  | .verifyShow => .verifyShow
  | .figureRelease => .figureRelease
  | .bellService => .bellService
  | .timerControl => timerCommand (f.arg 2)
  | .eventRead => .eventRead
  | .eventClear => .eventClear
  | .guardRead => .guardRead
  | .statusRead => .statusRead
  | .errorRead => .errorRead
  | .queueFlush => .queueFlush
  | .softReset => .softReset

/-- R162: the command that takes an entry of the MANAGEMENT intake queue. -/
def managementCommand (f : Frame) : Instr :=
  if f.kind ≠ Kind.request then .nonRequestEntryDiscarded
  else if f.payload.isEmpty then .emptyRequest
  else
    match f.request with
    | none => .unknownRequest
    | some r => requestCommand r f

/-- `c`, when it is due. -/
def whenDue (due : Bool) (c : Instr) : List Instr := if due then [c] else []

/-- R101: the change that line `n` is about to take. -/
def lineCommands (p : Part) (n : LineIx) : List Instr :=
  let l := p.guard.lines.read n
  whenDue (l.changing && !l.asserted) (.guardAssertion n) ++ whenDue (l.changing && l.asserted) (.guardDeassertion n) ++
    whenDue (settleDue n p) (.settleEnd n)

/-- R24, R33, R48: what is due in slot `i`. -/
def slotCommands (p : Part) (i : SlotIx) : List Instr :=
  whenDue (endDue i p) (.showEnd i) ++ whenDue (expiryDue i p) (.pendingExpiry i) ++ whenDue (stepDue i p) (.barrelStepRead i)

/-- R65: the head of the strike queue is due and OQ-STRIKE has room. -/
def releaseReady (p : Part) : Bool :=
  p.strikes.queue.head?.any (fun e => e.due p) && p.out.strike.length < strikeFrameCapacity

/-- R162, R4, R75, R91: the heads of the intake queues. -/
def intakeCommands (p : Part) : List Instr :=
  whenDue (!p.filter.calendar.entries.isEmpty) .timeFrameTaken ++ whenDue (!p.filter.bells.entries.isEmpty) .coilReportTaken ++
    whenDue (!p.filter.figures.entries.isEmpty) .positionReportTaken ++
    (p.filter.management.entries.head?.map fun e => managementCommand e.frame).toList

/-- R124, R144, R145: a READY transmitter with an eligible head. The upline one chooses first, because a choice of the
downline one can append an ATTENTION frame, and never the other way about. -/
def transmitCommands (p : Part) : List Instr :=
  whenDue (p.up.tx = .ready && (chooseUp p.out).isSome) .uplineTransmitStart ++
    whenDue (p.down.tx = .ready && (chooseDown p.out).isSome) .downlineTransmitStart

/-- The commands due in the present state, in the order in which the model takes them. A transmitter chooses at once
(R144, R145): before any other block takes its next step. -/
def dueCommands (p : Part) : List Instr :=
  match p.phase with
  | .running =>
    transmitCommands p ++ whenDue (boundaryPassed p) .minuteBoundaryEvaluation ++ allLines.flatMap (lineCommands p) ++
      whenDue (p.events.stop.endDue p.lineTime) (.pulseEnd .stop) ++ whenDue (p.events.beacon.endDue p.lineTime) (.pulseEnd .beacon) ++
      allSlots.flatMap (slotCommands p) ++ whenDue (releaseReady p) .strikeRelease ++ intakeCommands p
  | .softReset => whenDue (softResetOver p) .softResetEnd
  | .lineBreak => []

/-! ## A millisecond -/

/-- R2: the clock advances while it is SET. -/
def clockCommands (p : Part) : List Instr := whenDue (p.cal.clockState = .set) .clockAdvance

/-- R17, R18: a running timer counts, or overflows at the top. -/
def timerCommands (p : Part) (t : TimerIx) : List Instr :=
  let x := p.cal.timers.read t
  whenDue (x.run && x.count < timerTop) (.cueTimerCount t) ++ whenDue (x.run && x.count = timerTop) (.cueTimerOverflow t)

/-- The commands that a millisecond of line time brings to the blocks: samples, clock, timers, cooling, motion and the
verify sweep. The timers count and overflow in the order 0 to 7. Line time 0 is none of these milliseconds, so that the
first motion period after a reset is that of 20 ms (DESIGN CHOICE, assumption log 14). -/
def blockCommands (p : Part) : List Instr :=
  .guardInputSample p.guard.inputs :: clockCommands p ++ allTimers.flatMap (timerCommands p) ++
    whenDue (p.lineTime % 10 = 0) .coolingTick ++ whenDue (p.lineTime % 20 = 0) .motionPeriod ++
    whenDue (p.verify.result.state = .inProgress) .verifySweep

/-- R144, R145: a command after which each READY transmitter chooses at once. A transmit start with nothing to send
changes nothing. -/
def thenTransmit (c : Instr) : List Instr := [c, .uplineTransmitStart, .downlineTransmitStart]

/-- The commands that a millisecond of line time brings, each followed by the transmitters' choices. -/
def tickCommands (p : Part) : List Instr := (blockCommands p).flatMap thenTransmit

/-- One millisecond passes: line time, or in a reset the time since it began. -/
def passMillisecond (p : Part) : Part :=
  match p.phase with
  | .running => { p with lineTime := p.lineTime + 1 }
  | .lineBreak => { p with resetMs := p.resetMs + 1 }
  | .softReset =>
    { p with resetMs := p.resetMs + 1, resetHold := if transmittersDone p then p.resetHold + 1 else p.resetHold }

/-- The commands that the millisecond just passed brings. -/
def afterMillisecond (p : Part) : List Instr := if p.phase = .running then tickCommands p else clockCommands p

/-- What the part does of itself. The commands of a millisecond follow each millisecond that passes, so line time 0, at
which a reset ends, brings none (DESIGN CHOICE, assumption log 14). -/
def idle (s : State) : State :=
  match dueCommands s.part with
  | c :: _ => { s with pending := s.pending ++ [c] }
  | [] =>
    let q := passMillisecond s.part
    { part := q, pending := s.pending ++ afterMillisecond q }

end Sys2Proof.Machine
end

