-- ==== Sys2Proof/Machine/Dispatch.lean ====
section
/-! DEFINITION. Every command with its meaning, one arm each. -/

namespace Sys2Proof.Machine

def exec (i : Instr) (s : State) : Host.Outcome State Fault Refusal :=
  match i with
  | .powerOnReset => Sys2Proof.Machine.execPowerOnReset s
  | .lineBreakReset => Sys2Proof.Machine.execLineBreakReset s
  | .lbrEnd => Sys2Proof.Machine.execLbrEnd s
  | .softResetEnd => Sys2Proof.Machine.execSoftResetEnd s
  | .frameReceived port frame check => Sys2Proof.Machine.execFrameReceived port frame check s
  | .badStopBit port => Sys2Proof.Machine.execBadStopBit port s
  | .lengthAbove32 port length => Sys2Proof.Machine.execLengthAbove32 port length s
  | .runOnCharacter port => Sys2Proof.Machine.execRunOnCharacter port s
  | .truncation port => Sys2Proof.Machine.execTruncation port s
  | .receiverReady port => Sys2Proof.Machine.execReceiverReady port s
  | .downlineBreak => Sys2Proof.Machine.execDownlineBreak s
  | .downlineTransmitStart => Sys2Proof.Machine.execDownlineTransmitStart s
  | .uplineTransmitStart => Sys2Proof.Machine.execUplineTransmitStart s
  | .frameSent port => Sys2Proof.Machine.execFrameSent port s
  | .spacingEnd port => Sys2Proof.Machine.execSpacingEnd port s
  | .clockAdvance => Sys2Proof.Machine.execClockAdvance s
  | .minuteBoundaryEvaluation => Sys2Proof.Machine.execMinuteBoundaryEvaluation s
  | .timeFrameTaken => Sys2Proof.Machine.execTimeFrameTaken s
  | .cueTimerOverflow timer => Sys2Proof.Machine.execCueTimerOverflow timer s
  | .showEnd slot => Sys2Proof.Machine.execShowEnd slot s
  | .pendingExpiry slot => Sys2Proof.Machine.execPendingExpiry slot s
  | .barrelStepRead slot => Sys2Proof.Machine.execBarrelStepRead slot s
  | .strikeRelease => Sys2Proof.Machine.execStrikeRelease s
  | .coolingTick => Sys2Proof.Machine.execCoolingTick s
  | .coilReportTaken => Sys2Proof.Machine.execCoilReportTaken s
  | .motionPeriod => Sys2Proof.Machine.execMotionPeriod s
  | .positionReportTaken => Sys2Proof.Machine.execPositionReportTaken s
  | .guardAssertion line => Sys2Proof.Machine.execGuardAssertion line s
  | .guardDeassertion line => Sys2Proof.Machine.execGuardDeassertion line s
  | .settleEnd line => Sys2Proof.Machine.execSettleEnd line s
  | .pulseEnd pin => Sys2Proof.Machine.execPulseEnd pin s
  | .verifySweep => Sys2Proof.Machine.execVerifySweep s
  | .tableWrite => Sys2Proof.Machine.execTableWrite s
  | .tableRead => Sys2Proof.Machine.execTableRead s
  | .applyConfig => Sys2Proof.Machine.execApplyConfig s
  | .filterWrite => Sys2Proof.Machine.execFilterWrite s
  | .maskWrite => Sys2Proof.Machine.execMaskWrite s
  | .filterRead => Sys2Proof.Machine.execFilterRead s
  | .filterEnable => Sys2Proof.Machine.execFilterEnable s
  | .showStart => Sys2Proof.Machine.execShowStart s
  | .showStop => Sys2Proof.Machine.execShowStop s
  | .showHold => Sys2Proof.Machine.execShowHold s
  | .showResume => Sys2Proof.Machine.execShowResume s
  | .verifyShow => Sys2Proof.Machine.execVerifyShow s
  | .figureRelease => Sys2Proof.Machine.execFigureRelease s
  | .bellService => Sys2Proof.Machine.execBellService s
  | .timerRun => Sys2Proof.Machine.execTimerRun s
  | .timerStop => Sys2Proof.Machine.execTimerStop s
  | .timerStep => Sys2Proof.Machine.execTimerStep s
  | .timerTransfer => Sys2Proof.Machine.execTimerTransfer s
  | .timerSetReload => Sys2Proof.Machine.execTimerSetReload s
  | .timerSetBinding => Sys2Proof.Machine.execTimerSetBinding s
  | .eventRead => Sys2Proof.Machine.execEventRead s
  | .eventClear => Sys2Proof.Machine.execEventClear s
  | .guardRead => Sys2Proof.Machine.execGuardRead s
  | .statusRead => Sys2Proof.Machine.execStatusRead s
  | .errorRead => Sys2Proof.Machine.execErrorRead s
  | .queueFlush => Sys2Proof.Machine.execQueueFlush s
  | .softReset => Sys2Proof.Machine.execSoftReset s
  | .unknownRequest => Sys2Proof.Machine.execUnknownRequest s
  | .cueTimerCount timer => Sys2Proof.Machine.execCueTimerCount timer s
  | .guardInputSample levels => Sys2Proof.Machine.execGuardInputSample levels s
  | .downlineBreakEnd => Sys2Proof.Machine.execDownlineBreakEnd s
  | .nonRequestEntryDiscarded => Sys2Proof.Machine.execNonRequestEntryDiscarded s
  | .emptyRequest => Sys2Proof.Machine.execEmptyRequest s

end Sys2Proof.Machine
end

