-- ==== Sys2Proof/Safety.lean ====
section
/-! DEFINITION. What counts as a safe part, in the terms the claims use: the conditions that every step is
to keep, and the situations in which a command completes. -/

namespace Sys2Proof.Machine

/-! ## Situations -/

/-- The state with another part and the same commands waiting. -/
def State.withPart (s : State) (p : Part) : State := { s with part := p }

/-- A request of a suitable length stands at the head of the MANAGEMENT intake queue of a running part. -/
abbrev Waiting (r : Request) (e : IntakeEntry) (rest : List IntakeEntry) (s : State) : Prop :=
  s.part.phase = .running ∧ s.part.filter.management.entries = e :: rest ∧ e.frame.request = some r ∧
    r.lengthSuits e.frame.payload.length = true

/-- A frame completes at a port whose receiver is taking it. -/
abbrev Arriving (w : Port) (f : Frame) (s : State) : Prop :=
  s.part.phase = .running ∧ (portOf w s.part).rx.takesFrame = true ∧ f.wellFormed = true

/-- No bit of a stored word is disturbed. -/
def Table.clean (t : Table) : Prop := ∀ a, (wordAt t.words a).flips = 0

/-- Line time, the phase, the ports, the words of table memory, the settings and the verify unit are as they were. -/
def sameGround (p q : Part) : Prop :=
  q.lineTime = p.lineTime ∧ q.phase = p.phase ∧ q.up = p.up ∧ q.down = p.down ∧ q.table.words = p.table.words ∧
    q.settings = p.settings ∧ q.verify = p.verify

/-- As `sameGround`, and the slots, their contexts, the owners, the strike scheduler, the filters and the calendar
unit are as they were too, with every outbound queue but OQ-REPORT. -/
def sameButFigures (p q : Part) : Prop :=
  sameGround p q ∧ q.slots = p.slots ∧ q.contexts = p.contexts ∧ q.bellOwner = p.bellOwner ∧ q.figOwner = p.figOwner ∧
    q.strikes = p.strikes ∧ q.filter = p.filter ∧ q.cal = p.cal ∧ q.out = { p.out with report := q.out.report }

/-- R97, R81, R95: a standing figure `g`, the live record of figure `k`, as its resynchronisation in part `p` leaves
it. With its record read well it takes up motion from its last reported position, or from its stored setpoint where
it has reported none, inside its soft limits; with its record uncorrectable it is FAULTED with reason TABLE. -/
def resyncedFrom (p : Part) (k : FigIx) (g : LiveFigure) : LiveFigure :=
  match (readFigure k [0, 2] p).1 with
  | some rec => { g with
      state := if g.owner.isSome then .driven else .homing
      setpoint := max rec.lower (min rec.upper (g.reported.getD g.setpoint))
      lag := false, stall := none, silence := some p.lineTime, hold := 0, fault := .none
      brake := if rec.node = 0 then g.brake else some (BitVec.ofNat 8 rec.node, BitVec.ofNat 8 rec.channel) }
  | none => { g with state := .faulted, fault := .table, lag := false, stall := none, hold := 0 }

/-! ## Conditions that every step keeps -/

/-- R140, R134, R64: every queue within its capacity. -/
def queuesBounded (p : Part) : Prop :=
  p.out.guard.length ≤ 16 ∧ p.out.strike.length ≤ 16 ∧ p.out.motion.length ≤ 32 ∧ p.out.passDn.length ≤ 32 ∧
    p.out.report.length ≤ 16 ∧ p.out.passUp.length ≤ 32 ∧ p.strikes.queue.length ≤ 64 ∧
    p.filter.management.entries.length ≤ 8 ∧ p.filter.calendar.entries.length ≤ 4 ∧
    p.filter.figures.entries.length ≤ 16 ∧ p.filter.bells.entries.length ≤ 16

/-- R142, R143: the release mark is 0 in FREE mode and never beyond the entries of OQ-REPORT. -/
def markBounded (o : Outbound) : Prop := o.mark ≤ o.report.length ∧ (o.mode = .free → o.mark = 0)

/-- R42, R64: the strike queue stands in fire-instant order. -/
def strikesOrdered (p : Part) : Prop := p.strikes.queue.Pairwise fun a b => a.fire ≤ b.fire

/-- R42: every strike-queue entry belongs to the slot that owns its bell. -/
def strikesOwned (p : Part) : Prop := ∀ e ∈ p.strikes.queue, p.bellOwner.read e.bell = some e.slot

/-- R39: the ownership table names, for every bell and figure, the highest-rank busy slot that lists it. -/
def ownersAgree (p : Part) : Prop :=
  (∀ b, p.bellOwner.read b = bellClaim p.slots b) ∧ ∀ k, p.figOwner.read k = figureClaim p.slots k

/-- R1: an UNSET clock has no stamp, and the clock holds a possible time. -/
def clockSound (c : CalendarUnit) : Prop := c.clock.possible = true ∧ (c.clockState = .unset → c.stamp = none)

/-- R10: stamp `a` is no later than stamp `b`. -/
def stampUpTo (a b : Option DateTime) : Prop :=
  match a, b with
  | none, _ => True
  | some _, none => False
  | some x, some y => x.millis ≤ y.millis

/-- R121: the received frames of a port are those forwarded, consumed and dropped. -/
def portSums (c : PortCounts) : Prop := c.received = c.forwarded + c.consumed + c.dropped

/-- R105: while a line stops the clock, every slot is IDLE and no strike and no setpoint waits. -/
def quiet (p : Part) : Prop :=
  (∀ i, (p.slots.read i).state = .idle) ∧ p.strikes.queue = [] ∧ p.out.strike = [] ∧ p.out.motion = []

/-- R96, R105: guard line `n` holds every figure, and every figure stands. -/
def holdsEvery (n : LineIx) (p : Part) : Prop :=
  ∀ k, member (p.figures.read k).hold n.val = true ∧
    ((p.figures.read k).state = .frozen ∨ (p.figures.read k).state = .faulted)

/-- R104, R105: an asserted ALL-STOP line keeps the part quiet and holds every figure, and no asserted line
is settling. -/
def stopsHold (p : Part) : Prop :=
  (∀ n, (p.guard.lines.read n).stops = true → quiet p ∧ holdsEvery n p) ∧
    ∀ n, (p.guard.lines.read n).asserted = true → (p.guard.lines.read n).settle = none

/-- R80, R88: a setpoint is a signed sixteen-bit number. -/
def setpointsInRange (p : Part) : Prop :=
  ∀ k, -32768 ≤ (p.figures.read k).setpoint ∧ (p.figures.read k).setpoint ≤ 32767

end Sys2Proof.Machine
end

