-- ==== Sys2Proof/Certificates/Slice0/Obligations.lean ====
section
/-! DEFINITION. The statements for the provers. Where a statement's result is written with an operation of
the model, the operation is the one that carries out the rule its docstring cites. -/

open Sys2Proof Sys2Proof.Machine

/-! ## The machine as a whole -/

/-- A step takes the command at the front of the queue and carries it out with the queue's rest. -/
def Obligations.StepTakesTheFrontCommand : Prop :=
  ∀ (c : Instr) (rest : List Instr) (p : Part),
    step { part := p, pending := c :: rest } = exec c { part := p, pending := rest }

/-- The model's choice (assumption log 14): with no command waiting, the first command that is due is put on
the queue and nothing else happens; with none due in a running part, line time goes on by one millisecond. -/
def Obligations.EmptyQueueTakesWhatIsDueOrAMillisecond : Prop :=
  ∀ p : Part,
    (∀ c cs, dueCommands p = c :: cs → step { part := p, pending := [] } = .next { part := p, pending := [c] }) ∧
    (dueCommands p = [] → p.phase = .running →
      step { part := p, pending := [] } =
        .next { part := { p with lineTime := p.lineTime + 1 }, pending := tickCommands { p with lineTime := p.lineTime + 1 } })

/-- R126: in an LBR or a SOFT RESET the blocks take no events: only the clock, the transmitters and the
resets themselves go on. -/
def Obligations.InResetOtherCommandsChangeNothing : Prop :=
  ∀ (c : Instr) (s : State), s.part.phase ≠ .running →
    c ≠ .powerOnReset → c ≠ .lineBreakReset → c ≠ .lbrEnd → c ≠ .softResetEnd → c ≠ .clockAdvance →
    (∀ w, c ≠ .frameSent w) → (∀ w, c ≠ .spacingEnd w) → exec c s = .next s

/-! ## Resets -/

/-- The values that the manual gives for a power-on reset, block by block: R3, R17, R21, R45, R58, R78, R80,
R102, R108, R114, R123, R125, R128, R141, R143, R150, R157, R159, R160, R169. The filters and masks are the defaults of
R128, and the settings and the guard lines' configuration those of the configuration table (R160), written out; every
intake queue is empty with its overflow count 0 and its last rejected filter none, every outbound queue is empty, and every
count of page 3 is 0. Fields to which the manual gives no value after a reset are left out. -/
def Obligations.ResetLeavesTheValuesTheManualGives : Prop :=
  let p := State.reset.part
  State.reset.pending = [] ∧ p.phase = .running ∧ p.lineTime = 0 ∧
    p.cal.clockState = .unset ∧ p.cal.clock = DateTime.first ∧ p.cal.slew = 0 ∧ p.cal.stamp = none ∧
    p.cal.timeRejected = 0 ∧
    (∀ t, p.cal.timers.read t = { count := 0, reload := 0, run := false, stopAtOverflow := false, binding := none }) ∧
    (∀ i, (p.slots.read i).state = .idle ∧ (p.slots.read i).waiting = none ∧ (p.contexts.read i).state = .idle ∧
      (p.contexts.read i).rowMap = []) ∧
    (∀ b, p.bellOwner.read b = none) ∧ (∀ k, p.figOwner.read k = none) ∧ p.strikes.queue = [] ∧
    (∀ b, (p.strikes.bells.read b).heat = 0 ∧ (p.strikes.bells.read b).released = none ∧
      (p.strikes.bells.read b).health = .inService) ∧
    (∀ k, p.figures.read k = {
      state := .idle, owner := none, drive := none, setpoint := 0, reported := none, reportStamp := none, silence := none
      stall := none, hold := 0, fault := .none, lag := false, brake := none }) ∧
    (∀ n, let l := p.guard.lines.read n
      l.run = 0 ∧ l.changed = false ∧ l.settle = none ∧
        l.config = { activeHigh := false, cls := .note, zones := 0, autoResume := false, settleTime := 2000 }) ∧
    p.guard.awaitingSample = true ∧
    p.events.latches = 0 ∧ p.events.repeats = 0 ∧ p.events.enables = 0xFFFFFFFF ∧ p.events.routeFrame = 0xFFFFFFFF ∧
    p.events.routeStop = 0 ∧ p.events.routeBeacon = 0 ∧ p.events.sequence = 0 ∧
    p.events.stop = { mode := .level, pulseEnd := none } ∧ p.events.beacon = { mode := .level, pulseEnd := none } ∧
    stopActive p = false ∧ beaconActive p = false ∧
    p.settings = { ownAddress := 120, lineAllowance := 8, lateLimit := 5, lookahead := 400, reportTimeout := 500, catchUp := 5
                   pendingExpiry := 10 } ∧
    p.up.tx = .ready ∧ p.down.tx = .ready ∧ p.up.rx.state = .hunt ∧ p.down.rx.state = .hunt ∧
    p.up.counts = { received := 0, forwarded := 0, consumed := 0, dropped := 0, checkErrors := 0 } ∧
    p.down.counts = p.up.counts ∧ p.counts = {
      passDrop := 0, brakeDrop := 0, replyDrop := 0, motionSkip := 0, positionUnmatched := 0, shadowed := 0, noSubstitute := 0
      merged := 0, queueFull := 0, late := 0, degraded := 0, hot := 0, coilUnmatched := 0, noBell := 0, barrelError := 0
      recordError := 0 } ∧
    (let x : Filter := { enabled := true, direction := .up, dest := 0, self := true, source := 0, kind := Kind.request
                         selector := 0, mask := 0, action := .management, forward := false }
     let f := p.filter.filters.read
     f 0 = x ∧ f 1 = { x with kind := Kind.poll, action := .poll } ∧
      f 2 = { x with direction := .both, self := false, kind := Kind.time, mask := 1, action := .calendar, forward := true } ∧
      f 3 = { x with direction := .down, self := false, kind := Kind.position, mask := 1, action := .figures, forward := true } ∧
      f 4 = { x with direction := .down, self := false, kind := Kind.coil, mask := 1, action := .bells, forward := true } ∧
      ∀ i, 5 ≤ i.val → f i = { x with enabled := false, self := false, kind := 0, action := .discard }) ∧
    p.filter.masks.read 0 = { dest := 0xFF, source := 0, kind := 0xFF, selector := 0 } ∧
    p.filter.masks.read 1 = { dest := 0, source := 0, kind := 0xFF, selector := 0 } ∧
    (∀ m, 2 ≤ m.val → p.filter.masks.read m = { dest := 0, source := 0, kind := 0, selector := 0 }) ∧
    p.filter.management = { entries := [], overflow := 0, rejected := none } ∧
    p.filter.calendar = p.filter.management ∧ p.filter.figures = p.filter.management ∧ p.filter.bells = p.filter.management ∧
    p.out.guard = [] ∧ p.out.strike = [] ∧ p.out.motion = [] ∧ p.out.passDn = [] ∧ p.out.report = [] ∧ p.out.passUp = [] ∧
    p.out.mode = .free ∧ p.out.mark = 0 ∧
    p.out.levels = { strike := 3, motion := 2, passDn := 1, report := 2, passUp := 1 } ∧
    (∀ a, wordAt p.table.words a = StoredWord.blank) ∧ p.table.capture.kind = .empty ∧
    p.table.capture.repeated = false ∧ p.table.corrected = 0 ∧ p.verify.result.state = .none

/-- POWER_ON_RESET, LINE_BREAK_RESET, SOFT_RESET (R126, R159, R119, R125, R170, R114): a power-on reset gives the
initial part whatever was held before; the levels at the guard inputs and the count of free bytes are the
model's own fields and stay (assumption logs 4 and 15). That the part runs at once, start-up being no time of its own, is
the model's choice (assumption log 33), and so are those values of the initial part that the manual does not give, such as
a guard line's taken level and the fields of an IDLE slot, context or verify result (assumption log 1); the values it does
give are those of ResetLeavesTheValuesTheManualGives. That an LBR and a SOFT RESET leave every other block as it was until
they end is the model's reading (assumption log 22). A line break holds a running part in reset with both
transmitters stopped and both receivers silenced, STOP active and BEACON inactive, and one that goes on changes
nothing. A SOFT RESET request of the right length is not answered; its transmitters go on. -/
def Obligations.ResetsBegin : Prop :=
  ∀ s : State,
    exec .powerOnReset s = .next (s.withPart { Part.initial with
      guard := { GuardUnit.initial with inputs := s.part.guard.inputs }, freeUsed := s.part.freeUsed }) ∧
    (s.part.phase = .running →
      let p := { s.part with
        phase := .lineBreak, resetMs := 0
        up := { s.part.up with rx := Receiver.silenced, tx := .ready }
        down := { s.part.down with rx := Receiver.silenced, tx := .ready } }
      exec .lineBreakReset s = .next (s.withPart p) ∧ stopActive p = true ∧ beaconActive p = false) ∧
    (s.part.phase = .lineBreak → exec .lineBreakReset s = .next s) ∧
    ∀ e rest, Waiting .softReset e rest s → exec .softReset s = .next (s.withPart { setManagement rest s.part with
      phase := .softReset, resetMs := 0, resetHold := 0
      up := { s.part.up with rx := Receiver.silenced }
      down := { s.part.down with rx := Receiver.silenced } })

/-- LBR_END and SOFT_RESET_END (R125, R126, R159, R3, R13, R128, R114, R102, R169): the part runs again from line time 0 with its
default filters, settings, levels and ports; every table word, the clock and its slew remainder are kept, and with a
SET clock the last-fired stamp is raised to its minute; the first frame of OQ-REPORT is the ATTENTION of source 31
with tag 0 from address 120. Each guard line has its default configuration, no changed bit, no settle and no run, and
waits for the first sample (GuardUnit.kept); that the levels last sampled at the inputs are kept is the model's choice
(assumption log 15). A verify in flight is ABORTED with its show and its counts 0, and else the result is NONE
(VerifyUnit.afterReset); that an ABORTED result has no valid flag and no first fault, and the other fields of a NONE
result and of the idle sweep, are the model's choice (assumption logs 41 and 1). A SOFT RESET ends when both transmitters
have finished and 1 ms has passed since, and not before; the model counts that millisecond in its own step on an empty
queue (its choice, assumption log 26). -/
def Obligations.LeavingAResetKeepsTheTablesAndTheClock : Prop :=
  (∀ (c : Instr) (s : State),
    (c = .lbrEnd ∧ s.part.phase = .lineBreak) ∨
      (c = .softResetEnd ∧ s.part.phase = .softReset ∧ transmittersDone s.part = true ∧ 1 ≤ s.part.resetHold) →
    ∃ t, exec c s = .next t ∧ t.pending = s.pending ∧ t.part.phase = .running ∧ t.part.lineTime = 0 ∧
      t.part.table.words = s.part.table.words ∧ t.part.cal.clockState = s.part.cal.clockState ∧
      t.part.cal.clock = s.part.cal.clock ∧ t.part.cal.slew = s.part.cal.slew ∧ t.part.cal.timeRejected = 0 ∧
      t.part.cal.stamp = (if s.part.cal.clockState = .set ∧ afterStamp s.part.cal.stamp s.part.cal.clock.floorMinute = true
        then some s.part.cal.clock.floorMinute else s.part.cal.stamp) ∧
      t.part.filter = FilterUnit.initial ∧ t.part.settings = Settings.initial ∧ t.part.up = LinePort.initial ∧
      t.part.down = LinePort.initial ∧ t.part.out.levels = Levels.initial ∧ t.part.out.mode = .free ∧ t.part.out.mark = 0 ∧
      t.part.guard = s.part.guard.kept ∧ t.part.verify = s.part.verify.afterReset ∧
      t.part.out.report.head? = some (Frame.mk 0 120 Kind.attention 0 [0x80, 0, 0, 0, 0, 0, 0, 0])) ∧
  (∀ s : State, s.part.phase = .softReset → (transmittersDone s.part = false ∨ s.part.resetHold = 0) →
    exec .softResetEnd s = .next s) ∧
  ∀ p : Part, p.phase = .softReset → (transmittersDone p = false ∨ p.resetHold = 0) →
    ∃ t, step { part := p, pending := [] } = .next t ∧ t.part = { p with
      resetMs := p.resetMs + 1, resetHold := if transmittersDone p then p.resetHold + 1 else p.resetHold }

/-! ## The line -/

/-- FRAME_RECEIVED (R117, R118, R121, R122, R131): the receiver enters HUNT after a complete frame. One whose
check differs counts one check error and nothing else. A good one that matches no filter is placed unchanged in
the pass queue of the other port, and counted received and forwarded; when the queue holds 32 frames it is lost,
counted dropped and as a pass drop, and source 28 is latched. -/
def Obligations.UnmatchedFrameIsForwardedOrDropped : Prop :=
  ∀ (s : State) (w : Port) (f : Frame) (check : BitVec 16), Arriving w f s →
    let hunted := fun (count : PortCounts → PortCounts) => setPort w (fun l => { l with
      rx := { l.rx with state := .hunt, runOn := true }, counts := count l.counts }) s.part
    (check ≠ frameCheck f → exec (.frameReceived w f check) s = .next (s.withPart
      (hunted fun c => { c with checkErrors := bump c.checkErrors }))) ∧
    (check = frameCheck f → matching w f s.part = [] → (passQueue w s.part.out).length < 32 →
      exec (.frameReceived w f check) s = .next (s.withPart (setOut (·.appendPass w ⟨f, check⟩)
        (hunted fun c => { c with received := bump c.received, forwarded := bump c.forwarded })))) ∧
    (check = frameCheck f → matching w f s.part = [] → 32 ≤ (passQueue w s.part.out).length →
      exec (.frameReceived w f check) s = .next (s.withPart
        (setPort w (fun l => { l with counts := { l.counts with dropped := bump l.counts.dropped } })
          (latchEvent 28 (setCounts (fun c => { c with passDrop := bump c.passDrop })
            (hunted fun c => { c with received := bump c.received }))))))

/-- FRAME_RECEIVED (R131 to R134, R136, R137, R121, R122): the winner is the lowest matching filter whose consumer can
accept. A frame won for an intake queue is appended to it with its arrival stamp and its filter hit. A POLL won in
POLLED mode with frames in OQ-REPORT makes the release mark the number of its entries and appends nothing; with
OQ-REPORT empty a QUIET frame is appended already released; in FREE mode every POLL is answered with a QUIET frame,
lost with the reply-drop count when OQ-REPORT is full. With no consumer that can accept, the frame is delivered
nowhere, and the overflow count of the lowest matching filter's consumer rises and source 27 is latched. The forward
flag of the winner, or of that lowest filter, decides forwarding: forwarded into the other port's pass queue, or lost
and counted dropped with source 28; a frame not forwarded is counted consumed when it was taken and else dropped. -/
def Obligations.WinningFilterDelivers : Prop :=
  ∀ (s : State) (w : Port) (f : Frame) (i : FilterIx), Arriving w f s →
    let fits := fun j => (s.part.filter.filters.read j).matchesFrame s.part.filter.masks s.part.settings.ownAddress w f
    let x := s.part.filter.filters.read i
    let takes := fun j => canAccept (s.part.filter.filters.read j).action s.part.filter
    let counts := fun (g : PortCounts → PortCounts) => setPort w fun l => { l with counts := g l.counts }
    let received := setPort w (fun l => { l with
      rx := { l.rx with state := .hunt, runOn := true }
      counts := { l.counts with received := bump l.counts.received } }) s.part
    let forwarded := fun (p : Part) =>
      if (passQueue w p.out).length < 32 then
        counts (fun c => { c with forwarded := bump c.forwarded }) (setOut (·.appendPass w ⟨f, frameCheck f⟩) p)
      else counts (fun c => { c with dropped := bump c.dropped })
        (latchEvent 28 (setCounts (fun c => { c with passDrop := bump c.passDrop }) p))
    let taken := fun (p : Part) => exec (.frameReceived w f (frameCheck f)) s = .next (s.withPart
      (if x.forward then forwarded p else counts (fun c => { c with consumed := bump c.consumed }) p))
    let quiet : Frame := {
      dest := f.source, source := s.part.settings.ownAddress, kind := Kind.quiet, tag := f.tag, payload := [] }
    (fits i = true → takes i = true → (∀ j : FilterIx, j < i → fits j = true → takes j = false) →
      (x.action ≠ .poll → taken (setFilterUnit (·.changeQueue x.action
        fun q => { q with entries := q.entries ++ [{ frame := f, stamp := s.part.lineTime, hit := i }] }) received)) ∧
      (x.action = .poll → s.part.out.mode = .polled → s.part.out.report ≠ [] →
        taken (setOut (fun o => { o with mark := o.report.length }) received)) ∧
      (x.action = .poll → s.part.out.mode = .polled → s.part.out.report = [] →
        taken (setOut (fun o => { o with report := [quiet], mark := 1 }) received)) ∧
      (x.action = .poll → s.part.out.mode = .free → s.part.out.report.length < 16 →
        taken (setOut (fun o => { o with report := o.report ++ [quiet] }) received)) ∧
      (x.action = .poll → s.part.out.mode = .free → 16 ≤ s.part.out.report.length →
        taken (setCounts (fun c => { c with replyDrop := bump c.replyDrop }) received))) ∧
    (fits i = true → (∀ j : FilterIx, j < i → fits j = false) → (∀ j, fits j = true → takes j = false) →
      let lost := latchEvent 27
        (setFilterUnit (·.changeQueue x.action fun q => { q with overflow := bump q.overflow }) received)
      exec (.frameReceived w f (frameCheck f)) s = .next (s.withPart
        (if x.forward then forwarded lost else counts (fun c => { c with dropped := bump c.dropped }) lost)))

/-- BAD_STOP_BIT, TRUNCATION, LENGTH_ABOVE_32 (R118), RUN_ON_CHARACTER, RECEIVER_READY (R116): an error discards
the frame in progress and counts one check error, and the receiver enters HUNT, or after a truncation READY. In
HUNT after a complete frame the first character counts one check error and a second none, and 40 µs of idle make
the receiver READY. For TRUNCATION and LENGTH_ABOVE_32 a READY receiver stands for one inside a frame too, since no
command of the table begins a frame (the model's choice, assumption log 12); and a BAD_STOP_BIT in HUNT counts nothing
(assumption log 44), which this statement leaves out. -/
def Obligations.ReceiveErrorsAreCountedOnce : Prop :=
  ∀ (s : State) (w : Port), s.part.phase = .running → let r := (portOf w s.part).rx
    let after := fun (x : RxState) => setPort w (fun l => { l with
      rx := { l.rx with state := x, runOn := false }
      counts := { l.counts with checkErrors := bump l.counts.checkErrors } }) s.part
    (r.takesFrame = true → exec (.badStopBit w) s = .next (s.withPart (after .hunt)) ∧
      exec (.truncation w) s = .next (s.withPart (after .ready)) ∧
      ∀ n : Byte, 32 < n.toNat → exec (.lengthAbove32 w n) s = .next (s.withPart (after .hunt))) ∧
    (r.state = .hunt → r.inBreak = false →
      (r.runOn = true → exec (.runOnCharacter w) s = .next (s.withPart (after .hunt))) ∧
      (r.runOn = false → exec (.runOnCharacter w) s = .next s) ∧
      exec (.receiverReady w) s = .next (s.withPart (setPort w (fun l => { l with
        rx := { l.rx with state := .ready, runOn := false } }) s.part)))

/-- DOWNLINE_BREAK and DOWNLINE_BREAK_END (R120): a break latches source 29 once and stops the downline
receiver; at its end the receiver enters HUNT. -/
def Obligations.DownlineBreakLatchesOnce : Prop :=
  ∀ s : State, s.part.phase = .running →
    (s.part.down.rx.inBreak = false → exec .downlineBreak s = .next (s.withPart (latchEvent 29
      { s.part with down := { s.part.down with rx := { state := .hunt, runOn := false, inBreak := true } } }))) ∧
    (s.part.down.rx.inBreak = true → exec .downlineBreak s = .next s ∧
      exec .downlineBreakEnd s = .next (s.withPart ({ s.part with down := { s.part.down with rx := { state := .hunt, runOn := false, inBreak := false } } })))

/-! ## The transmitters and the outbound queues -/

/-- UPLINE_TRANSMIT_START (R142, R143, R145, R117, R122): an eligible OQ-REPORT goes first unless OQ-PASSUP has
a higher level; its frame is sent with the check of its contents, and the release mark falls by one in POLLED
mode. Otherwise the head of OQ-PASSUP is sent with the check it arrived with. -/
def Obligations.UplineSendsTheReportOrThePassedFrame : Prop :=
  ∀ s : State, s.part.phase = .running → s.part.up.tx = .ready →
    (∀ f rest, s.part.out.report = f :: rest → (s.part.out.mode = .free ∨ 1 ≤ s.part.out.mark) →
      (s.part.out.passUp = [] ∨ s.part.out.levels.passUp ≤ s.part.out.levels.report) →
      exec .uplineTransmitStart s = .next (s.withPart { s.part with
        up := { s.part.up with tx := .sending ⟨f, frameCheck f⟩ }
        out := { s.part.out with
          report := rest
          mark := if s.part.out.mode = .polled then s.part.out.mark - 1 else s.part.out.mark } })) ∧
    ∀ x rest, s.part.out.passUp = x :: rest →
      ((s.part.out.mode = .polled ∧ s.part.out.mark = 0) ∨ s.part.out.report = [] ∨
        s.part.out.levels.report < s.part.out.levels.passUp) →
      exec .uplineTransmitStart s = .next (s.withPart { s.part with
        up := { s.part.up with tx := .sending x }, out := { s.part.out with passUp := rest } })

/-- DOWNLINE_TRANSMIT_START, FRAME_SENT, SPACING_END (R124, R144): OQ-GUARD goes before every other queue; of the others
the one of the highest level goes first, and OQ-STRIKE before OQ-MOTION before OQ-PASSDN at equal levels. SENDING
is followed by SPACING, and SPACING by READY. -/
def Obligations.GuardFramesGoFirstAndFramesAreSpaced : Prop :=
  ∀ s : State,
    (∀ f rest, s.part.phase = .running → s.part.down.tx = .ready → s.part.out.guard = f :: rest →
      exec .downlineTransmitStart s = .next (s.withPart { s.part with
        down := { s.part.down with tx := .sending ⟨f, frameCheck f⟩ }, out := { s.part.out with guard := rest } })) ∧
    (s.part.phase = .running → s.part.down.tx = .ready → s.part.out.guard = [] →
      (∀ m rest, s.part.out.motion = m :: rest →
        (s.part.out.strike = [] ∨ s.part.out.levels.strike < s.part.out.levels.motion) →
        (s.part.out.passDn = [] ∨ s.part.out.levels.passDn ≤ s.part.out.levels.motion) →
        exec .downlineTransmitStart s = .next (s.withPart { s.part with
          down := { s.part.down with tx := .sending ⟨m.frame, frameCheck m.frame⟩ }, out := { s.part.out with motion := rest } })) ∧
      (∀ x rest, s.part.out.passDn = x :: rest →
        (s.part.out.strike = [] ∨ s.part.out.levels.strike < s.part.out.levels.passDn) →
        (s.part.out.motion = [] ∨ s.part.out.levels.motion < s.part.out.levels.passDn) →
        exec .downlineTransmitStart s = .next (s.withPart { s.part with
          down := { s.part.down with tx := .sending x }, out := { s.part.out with passDn := rest } })) ∧
      (s.part.out.strike = [] → s.part.out.motion = [] → s.part.out.passDn = [] →
        exec .downlineTransmitStart s = .next s)) ∧
    (∀ w x, (portOf w s.part).tx = .sending x →
      exec (.frameSent w) s = .next (s.withPart (setPort w (fun l => { l with tx := .spacing }) s.part))) ∧
    ∀ w, (portOf w s.part).tx = .spacing →
      exec (.spacingEnd w) s = .next (s.withPart (setPort w (fun l => { l with tx := .ready }) s.part))

/-- DOWNLINE_TRANSMIT_START (R66 to R70, R144, R146): a strike chosen at its transmit start, no later than the
late limit, is sent to the bell's node with its delay, at its nominal width or, where that would pass the heat
limit, at the degraded width, and its heat is charged; then due strikes take the place it freed. A completion that
sends nothing is followed at once by another choice: a late strike is counted with source 26, one withheld hot is
counted with source 26, one whose record reads node 0 counts as no-bell, and one whose record is uncorrectable as a
record error. The late test comes before the test of the node, and that before the test of the heat (the model's order,
assumption log 8). The frame's tag is a
free byte (assumption log 4). -/
def Obligations.HammerIsCompletedAtItsTransmitStart : Prop :=
  ∀ (s : State) (e : StrikeFrame) (rest : List StrikeFrame),
    let p := setOut (fun o => { o with strike := rest }) s.part
    s.part.phase = .running → s.part.down.tx = .ready → s.part.out.guard = [] → s.part.out.strike = e :: rest →
    (s.part.out.motion = [] ∨ s.part.out.levels.motion ≤ s.part.out.levels.strike) →
    (s.part.out.passDn = [] ∨ s.part.out.levels.passDn ≤ s.part.out.levels.strike) →
    let q := (readBell e.bell [0, 1, 2] p).2
    ((completeStrike e p).1 = none →
      exec .downlineTransmitStart s = exec .downlineTransmitStart (s.withPart (releaseDue (completeStrike e p).2))) ∧
    ((readBell e.bell [0, 1, 2] p).1 = none →
      completeStrike e p = (none, q) ∧ q.counts.recordError = bump s.part.counts.recordError ∧ q.strikes = s.part.strikes) ∧
    ∀ rec : BellRecord, (readBell e.bell [0, 1, 2] p).1 = some rec →
      let late : Bool := e.fire + s.part.settings.lateLimit < (s.part.lineTime : Int)
      let heat := (s.part.strikes.bells.read e.bell).heat
      let full := rec.pulseMin + ((rec.pulseMax - rec.pulseMin) * e.velocity + 63) / 127
      let less := (rec.heatLimit - heat) / rec.unitHeat
      let fits : Bool := heat + full * rec.unitHeat ≤ rec.heatLimit
      let enough : Bool := heat < rec.heatLimit ∧ rec.pulseMin ≤ less
      let width := if fits then full else less
      let f : Frame := {
        dest := BitVec.ofNat 8 rec.node, source := s.part.settings.ownAddress, kind := Kind.hammer
        tag := Config.freeByte s.part.freeUsed
        payload := [BitVec.ofNat 8 rec.channel, BitVec.ofNat 8 (min (e.fire - s.part.lineTime).toNat 255),
          BitVec.ofNat 8 width, BitVec.ofNat 8 e.velocity, BitVec.ofNat 8 e.bell.val] }
      let counted := if fits then q else setCounts (fun c => { c with degraded := bump c.degraded }) q
      (late = true → completeStrike e p = (none, latchEvent 26 (setCounts (fun c => { c with late := bump c.late }) q))) ∧
      (late = false → rec.node = 0 →
        completeStrike e p = (none, setCounts (fun c => { c with noBell := bump c.noBell }) q)) ∧
      (late = false → rec.node ≠ 0 → fits = false → enough = false →
        completeStrike e p = (none, latchEvent 26 (setCounts (fun c => { c with hot := bump c.hot }) q))) ∧
      (late = false → rec.node ≠ 0 → (fits = true ∨ enough = true) →
        exec .downlineTransmitStart s = .next (s.withPart (releaseDue
          { setBell e.bell (fun b => { b with heat := b.heat + width * rec.unitHeat }) counted with
            down := { s.part.down with tx := .sending ⟨f, frameCheck f⟩ }, freeUsed := s.part.freeUsed + 1 })))

/-- QUEUE_FLUSH (R148, R149): the queue named is emptied and the reply gives it and the number of entries
removed; a flush of OQ-MOTION while a figure moves is refused with STATE; a code beyond the six with RANGE. -/
def Obligations.QueueFlushEmptiesOneQueue : Prop :=
  ∀ (s : State) (e : IntakeEntry) (rest : List IntakeEntry), Waiting .queueFlush e rest s →
    let p := setManagement rest s.part
    (5 < e.frame.arg 1 → exec .queueFlush s = .next (s.withPart (answer e .range [] p))) ∧
    (e.frame.arg 1 = 2 → figuresMoving s.part = true → exec .queueFlush s = .next (s.withPart (answer e .state [] p))) ∧
    ∀ name, QueueName.ofCode (e.frame.arg 1) = some name → (name = .motion → figuresMoving s.part = false) →
      let q := setOut (·.flush name) p
      exec .queueFlush s = .next (s.withPart (answer e .done [BitVec.ofNat 8 (e.frame.arg 1), BitVec.ofNat 8 (s.part.out.lengthOf name)]
          (if name = .strike then releaseDue q else q)))

/-! ## The clock, the calendar and the cue timers -/

/-- CLOCK_ADVANCE (R2, R8, R1): a SET clock moves on by one millisecond; at a multiple of 100 ms a positive
slew remainder makes it two and a negative one none, and the remainder comes nearer to 0 by one. An UNSET
clock does not move. -/
def Obligations.ClockAdvancesByTheSlew : Prop :=
  ∀ s : State, s.part.cal.clock.possible = true →
    (s.part.cal.clockState = .unset → exec .clockAdvance s = .next s) ∧
    (s.part.cal.clockState = .set → s.part.cal.clock.millis + 2 ≤ lastMillis →
      ∃ c, exec .clockAdvance s = .next (s.withPart ({ s.part with cal := c })) ∧
        c = { s.part.cal with clock := c.clock, slew := c.slew } ∧ c.clock.possible = true ∧
        (slewDue s.part = true → 0 < s.part.cal.slew →
          c.clock.millis = s.part.cal.clock.millis + 2 ∧ c.slew = s.part.cal.slew - 1) ∧
        (slewDue s.part = true → s.part.cal.slew < 0 → c.clock = s.part.cal.clock ∧ c.slew = s.part.cal.slew + 1) ∧
        (slewDue s.part = false ∨ s.part.cal.slew = 0 →
          c.clock.millis = s.part.cal.clock.millis + 1 ∧ c.slew = s.part.cal.slew))

/-- MINUTE_BOUNDARY_EVALUATION (R10, R11, R16) and what becomes of a start request (R27, R29, R31, R32, R38). A boundary
later than the stamp is evaluated and becomes the stamp: the calendar entries are read, and each slot's winner, in the
order of the slots, is handed over as a request for its show with its season rank and the boundary's hour. Otherwise,
and while the clock is UNSET, nothing is evaluated. A request is lost with source 24 during an ALL-STOP; it starts its
show in an IDLE slot, and replaces a calendar show of a lower season rank, the pending start staying as it is, unless
its show fails its checks or has no hour to count, when it is lost with source 24; in every other case it becomes the
slot's pending start, and the one held before is lost with source 24. That the 64 entries are read once, and the three
slots served from that one reading, is the model's reading of R14 and R16 (assumption log 20). -/
def Obligations.MinuteBoundarySetsTheStamp : Prop :=
  (∀ s : State, s.part.phase = .running →
    (boundaryPassed s.part = true →
      let b := { s.part.cal.clock with second := 0, milli := 0 }
      let read := readCalendar (List.range 64) s.part
      let served := fun (i : SlotIx) (p : Part) =>
        match winner read.1 i b with
        | none => p
        | some e => requestStart { slot := i, showIx := e.showIx, source := .calendar, rank := e.rank
                                   hour := some b.hour, trigger := s.part.lineTime } p
      let t := served 2 (served 1 (served 0 read.2))
      exec .minuteBoundaryEvaluation s = .next (s.withPart { t with cal := { s.part.cal with stamp := some b } }) ∧
        sameGround s.part t ∧ t.filter = s.part.filter ∧ t.guard = s.part.guard) ∧
    (s.part.cal.clockState = .unset → exec .minuteBoundaryEvaluation s = .next s) ∧
    (boundaryPassed s.part = false → exec .minuteBoundaryEvaluation s = .next s)) ∧
  ∀ (r : StartRequest) (p : Part), let x := p.slots.read r.slot
    let c := checkShow r.showIx p
    let replaces : Bool := x.state ≠ .idle ∧ r.source = .calendar ∧ x.source = .calendar ∧ x.rank < r.rank
    (allStopAsserted p = true → requestStart r p = latchEvent 24 p) ∧
    (allStopAsserted p = false → x.state = .idle ∨ replaces = true →
      (∀ why, c.1 = .error why → requestStart r p = latchEvent 24 c.2) ∧
      (∀ show_, c.1 = .ok show_ → repetitions show_.copy r.hour = none → requestStart r p = latchEvent 24 c.2) ∧
      ∀ show_ reps, c.1 = .ok show_ → repetitions show_.copy r.hour = some reps →
        let t := requestStart r p
        let y := t.slots.read r.slot
        y.state = .running ∧ y.showIx = r.showIx ∧ y.source = r.source ∧ y.rank = r.rank ∧ y.reps = reps ∧
          y.origin = p.lineTime ∧ y.hold = none ∧ y.waiting = x.waiting ∧
          (∀ i, i ≠ r.slot → t.slots.read i = p.slots.read i) ∧ ownersAgree t ∧ member t.events.latches 22 = true) ∧
    (allStopAsserted p = false → x.state ≠ .idle → replaces = false →
      requestStart r p = setSlot r.slot (fun y => { y with waiting := some {
          showIx := r.showIx, source := r.source, rank := r.rank, hour := r.hour, trigger := r.trigger
          expiry := r.trigger + p.settings.pendingExpiry * 60000 } })
        (if x.waiting.isSome then latchEvent 24 p else p))

/-- R14 to R16: the entries taken at an evaluation are those of the 64 that read well, in index order. An entry is a
candidate for a slot at a boundary when its valid flag is set, its slot is that slot, its date range contains the date
(month first and then day, wrapping over the new year when the start is after the end), its weekday set and its hour set
hold the weekday and the hour, and its minute is the minute; the fields are read clamped. The winner is a candidate of the
highest season rank, and no earlier entry of that rank is one. That the four words of every entry are read, and the
entries in the order of their indexes, is the model's reading and its choice (assumption logs 7 and 38). -/
def Obligations.WinnerHasTheHighestRank : Prop :=
  (∀ p : Part, (readCalendar (List.range 64) p).1 = (List.range 64).filterMap fun i =>
    (readRecord .calendar (384 + 4 * i) [0, 1, 2, 3] p).1.map calendarEntry) ∧
  (∀ (w : Nat → Word) (slot : SlotIx) (b : DateTime), b.possible = true →
    let upTo := fun (x y : Nat × Nat) => x.1 < y.1 ∨ x.1 = y.1 ∧ x.2 ≤ y.2
    let first := (max 1 (min 12 (byteAt (w 0) 1)), max 1 (min 31 (byteAt (w 0) 2)))
    let last := (max 1 (min 12 (byteAt (w 0) 3)), max 1 (min 31 (byteAt (w 1) 0)))
    let day := (b.month, b.day)
    let monday := (b.millis / 86400000 + 5) % 7
    ((calendarEntry w).candidate slot b = true ↔
      byteAt (w 0) 0 ≠ 0 ∧ min 2 (byteAt (w 1) 3) = slot.val ∧
        (upTo first last → upTo first day ∧ upTo day last) ∧ (¬ upTo first last → upTo first day ∨ upTo day last) ∧
        (w 1).getLsbD (16 + monday) = true ∧ (w 2).getLsbD (8 + b.hour) = true ∧ min 59 (byteAt (w 1) 2) = b.minute) ∧
      (calendarEntry w).showIx.val = min 31 (byteAt (w 2) 3) ∧ (calendarEntry w).rank = min 15 (byteAt (w 3) 0)) ∧
  ∀ (es : List CalendarEntry) (slot : SlotIx) (b : DateTime),
    (winner es slot b = none ↔ ∀ e ∈ es, e.candidate slot b = false) ∧
    ∀ e, winner es slot b = some e → ∃ before after, es = before ++ e :: after ∧ e.candidate slot b = true ∧
      (∀ x ∈ before, x.candidate slot b = true → x.rank < e.rank) ∧
      ∀ x ∈ after, x.candidate slot b = true → x.rank ≤ e.rank

/-- TIME_FRAME_TAKEN (R4 to R7, R9, R12, R135): a frame of another kind or length is rejected and its filter hit
kept; an impossible time is rejected; a possible one sets an UNSET clock, slews a SET clock that it finds
within 2,000 ms, and steps one further off; a step back leaves the stamp, and one forward raises it to the new
minute after each slot, in order, has been caught up. The skipped boundaries are the minutes after the stamp, at or
before the new time and within the window, the latest first. With no table word disturbed, a slot is served from the
first of them at which it has a winner, with that boundary's hour, and a slot that has none at any gets no request. -/
def Obligations.TimeFrameSetsSlewsOrSteps : Prop :=
  (∀ (s : State) (e : IntakeEntry) (rest : List IntakeEntry), s.part.phase = .running →
    s.part.filter.calendar.entries = e :: rest →
    let p := setCalendarIntake (fun q => { q with entries := rest }) s.part
    let t := (timeOfPayload e.frame).later (s.part.lineTime - e.stamp)
    let d : Int := (t.millis : Int) - s.part.cal.clock.millis
    let good := e.frame.kind = Kind.time ∧ e.frame.payload.length = 9
    (¬ good → exec .timeFrameTaken s = .next (s.withPart (setCal (fun c => { c with timeRejected := bump c.timeRejected })
        (setCalendarIntake (fun q => { q with rejected := some e.hit }) p)))) ∧
    (good → (timeOfPayload e.frame).possible = false → exec .timeFrameTaken s = .next (s.withPart (setCal (fun c => { c with timeRejected := bump c.timeRejected }) p))) ∧
    (good → (timeOfPayload e.frame).possible = true →
      (s.part.cal.clockState = .unset → exec .timeFrameTaken s = .next (s.withPart (latchEvent 20
        (setCal (fun c => { c with clock := t, clockState := .set, slew := 0, stamp := some { t with second := 0, milli := 0 } }) p)))) ∧
      (s.part.cal.clockState = .set → d.natAbs ≤ 2000 → exec .timeFrameTaken s = .next (s.withPart (setCal (fun c => { c with slew := d }) p))) ∧
      (s.part.cal.clockState = .set → d < -2000 → exec .timeFrameTaken s = .next (s.withPart (latchEvent 21
        (setCal (fun c => { c with clock := t, slew := 0 }) p)))) ∧
      (s.part.cal.clockState = .set → 2000 < d →
        let bs := skippedBoundaries s.part.cal.stamp t.millis s.part.settings.catchUp
        let stepped := latchEvent 21 (setCal (fun c => { c with clock := t, slew := 0 }) p)
        let q := catchUpSlot bs (catchUpSlot bs (catchUpSlot bs stepped 0) 1) 2
        exec .timeFrameTaken s = .next (s.withPart { q with cal := { s.part.cal with
          clock := t, slew := 0
          stamp := if afterStamp s.part.cal.stamp t.floorMinute then some t.floorMinute else s.part.cal.stamp } }) ∧
        q.events.latches.getLsbD 21 = true ∧ q.table.words = s.part.table.words ∧ q.filter = p.filter))) ∧
  (∀ (stamp : Option DateTime) (now window : Nat), now ≤ lastMillis →
    (∀ b : DateTime, b ∈ skippedBoundaries stamp now window ↔
      b.possible = true ∧ b.second = 0 ∧ b.milli = 0 ∧ afterStamp stamp b = true ∧ b.millis ≤ now ∧
        now - b.millis ≤ window * 60000) ∧
    (skippedBoundaries stamp now window).Pairwise fun a b => b.millis < a.millis) ∧
  ∀ (bs : List DateTime) (i : SlotIx) (p : Part), p.table.clean →
    let es := (readCalendar (List.range 64) p).1
    ((∀ b ∈ bs, winner es i b = none) → catchUpSlot bs p i = p) ∧
    ∀ before b after e, bs = before ++ b :: after → (∀ x ∈ before, winner es i x = none) → winner es i b = some e →
      catchUpSlot bs p i = requestStart { slot := i, showIx := e.showIx, source := .calendar, rank := e.rank
                                          hour := some b.hour, trigger := p.lineTime } p

/-- CUE_TIMER_COUNT and CUE_TIMER_OVERFLOW (R17, R18, R38): a running timer counts up by one below the top; at
the top it takes its reload value and latches its source; with no binding it asks for no show, and a bound timer
asks for the start of its show with season rank 0 and the wall clock's hour, which is dropped with source 24
during an ALL-STOP. -/
def Obligations.CueTimerCountsAndOverflows : Prop :=
  ∀ (s : State) (t : TimerIx), s.part.phase = .running → let x := s.part.cal.timers.read t
    let past := latchEvent (8 + t.val) (setTimer t (fun y => { y with count := y.reload }) s.part)
    let stopped := fun p => setTimer t (fun y => { y with run := !x.stopAtOverflow }) p
    (x.run = true → x.count < 16777215 → exec (.cueTimerCount t) s = .next (s.withPart
      (setTimer t (fun y => { y with count := y.count + 1 }) s.part))) ∧
    (x.run = false → exec (.cueTimerCount t) s = .next s ∧ exec (.cueTimerOverflow t) s = .next s) ∧
    (x.run = true → x.count = 16777215 → x.binding = none →
      exec (.cueTimerOverflow t) s = .next (s.withPart (stopped past))) ∧
    ∀ b, x.run = true → x.count = 16777215 → x.binding = some b →
      let r : StartRequest := {
        slot := b.1, showIx := b.2, source := .timer, rank := 0, trigger := s.part.lineTime
        hour := if s.part.cal.clockState = .set then some s.part.cal.clock.hour else none }
      exec (.cueTimerOverflow t) s = .next (s.withPart (stopped (requestStart r past))) ∧
        (allStopAsserted s.part = true → requestStart r past = latchEvent 24 past)

/-- TIMER_RUN, TIMER_STOP, TIMER_STEP, TIMER_TRANSFER, TIMER_SET_RELOAD, TIMER_SET_BINDING (R19, R18): each action
of TIMER CONTROL changes its own field of the timer named and is answered with the timer's count, reload value, flags and
binding as they then stand; a step at the top overflows, with the start request of a bound timer; a step of a running
timer is refused with STATE, and an action above 5, a binding beyond slot 2 or show 31 and a timer above 7 with RANGE, a
timer above 7 without data. What becomes of the start request is said in MinuteBoundarySetsTheStamp. The show byte beside
a binding of none is a free byte (assumption log 4); that the six bits beside the two flags are 0, and that any of the
six steps takes an action above 5, is the model's choice (assumption logs 35 and 11). -/
def Obligations.TimerControlChangesOneField : Prop :=
  ∀ (s : State) (e : IntakeEntry) (rest : List IntakeEntry), Waiting .timerControl e rest s →
    let p := setManagement rest s.part
    let steps := [(0, Instr.timerRun), (1, .timerStop), (2, .timerStep), (3, .timerTransfer), (4, .timerSetReload), (5, .timerSetBinding)]
    (8 ≤ e.frame.arg 1 → ∀ x ∈ steps, e.frame.arg 2 = x.1 ∨ 5 < e.frame.arg 2 →
      exec x.2 s = .next (s.withPart (answer e .range [] p))) ∧
    ∀ t : TimerIx, e.frame.arg 1 = t.val →
    let told := fun (r : Result) (q : Part) =>
      let x := q.cal.timers.read t
      let head := bytesOf 3 x.count ++ bytesOf 3 x.reload ++
        [BitVec.ofNat 8 ((if x.run then 1 else 0) + (if x.stopAtOverflow then 2 else 0))]
      match x.binding with
      | some b => answer e r (head ++ [BitVec.ofNat 8 b.1.val, BitVec.ofNat 8 b.2.val]) q
      | none => answer e r (head ++ [255, Config.freeByte q.freeUsed]) { q with freeUsed := q.freeUsed + 1 }
    let gives := fun (c : Instr) (r : Result) (f : CueTimer → CueTimer) => exec c s = .next (s.withPart (told r (setTimer t f p)))
    let past := latchEvent (8 + t.val) (setTimer t (fun x => { x with count := x.reload }) p)
    (5 < e.frame.arg 2 → ∀ x ∈ steps, gives x.2 .range fun x => x) ∧
    (e.frame.arg 2 = 0 → gives .timerRun .done fun x => { x with run := true }) ∧
    (e.frame.arg 2 = 1 → gives .timerStop .done fun x => { x with run := false }) ∧
    (e.frame.arg 2 = 2 → (s.part.cal.timers.read t).run = true → gives .timerStep .state fun x => x) ∧
    (e.frame.arg 2 = 2 → (s.part.cal.timers.read t).run = false → (s.part.cal.timers.read t).count < 16777215 →
      gives .timerStep .done fun x => { x with count := x.count + 1 }) ∧
    (e.frame.arg 2 = 2 → (s.part.cal.timers.read t).run = false → (s.part.cal.timers.read t).count = 16777215 →
      ((s.part.cal.timers.read t).binding = none → exec .timerStep s = .next (s.withPart (told .done past))) ∧
      ∀ b, (s.part.cal.timers.read t).binding = some b →
        let r : StartRequest := {
          slot := b.1, showIx := b.2, source := .timer, rank := 0, trigger := s.part.lineTime
          hour := if s.part.cal.clockState = .set then some s.part.cal.clock.hour else none }
        exec .timerStep s = .next (s.withPart (told .done (requestStart r past)))) ∧
    (e.frame.arg 2 = 3 → gives .timerTransfer .done fun x => { x with count := x.reload }) ∧
    (e.frame.arg 2 = 4 → gives .timerSetReload .done fun x =>
      { x with reload := (e.frame.arg 3 * 256 + e.frame.arg 4) * 256 + e.frame.arg 5 }) ∧
    (e.frame.arg 2 = 5 → e.frame.arg 3 = 255 → gives .timerSetBinding .done fun x => { x with binding := none }) ∧
    (e.frame.arg 2 = 5 → ∀ (i : SlotIx) (k : ShowIx), e.frame.arg 3 = i.val → e.frame.arg 4 = k.val →
      gives .timerSetBinding .done fun x => { x with binding := some (i, k) }) ∧
    (e.frame.arg 2 = 5 → e.frame.arg 3 ≠ 255 → (3 ≤ e.frame.arg 3 ∨ 32 ≤ e.frame.arg 4) →
      gives .timerSetBinding .range fun x => x)

/-! ## Shows -/

/-- SHOW_START (R28, R30, R27, R38): a slot or show beyond its range is refused with RANGE, any start during an
ALL-STOP with STATE, a start in a busy slot without the replace option with BUSY, one that fails a check with
that check's result, and an HOUR COUNT show with the clock UNSET with STATE. A show that passes its
checks runs in the slot named, from the present line time, with start source MANAGEMENT and season rank 0;
the other slots, the pending start, the calendar, the ports, the guard lines and every table word stay, and the reply is
DONE. Before the first barrel step is read the owners are those the slots give, source 22 is latched, and the slot's
barrel context is prepared (R46, R47): DONE with an empty row map for a show without a barrel, and else READING from step
0 of repetition 0, with the header and the row map as they stand in the table and the last step of R47. The steps then
due are read by readDueSteps, whose reads BarrelReadsEveryDueStep gives. The other slots' contexts stay. Its list of
figures (R40) holds the figure of each item that no earlier item names, with that item, and the twin that such an item
implies, unless an item names the twin or a lower item implies it; an item whose figure record is uncorrectable
implies none. -/
def Obligations.ShowStartFillsTheSlotOrIsRefused : Prop :=
  ∀ (s : State) (e : IntakeEntry) (rest : List IntakeEntry), Waiting .showStart e rest s →
    let p := setManagement rest s.part
    ((3 ≤ e.frame.arg 1 ∨ 32 ≤ e.frame.arg 2) → exec .showStart s = .next (s.withPart (answer e .range [] p))) ∧
    ∀ (i : SlotIx) (k : ShowIx), e.frame.arg 1 = i.val → e.frame.arg 2 = k.val →
      (allStopAsserted s.part = true → exec .showStart s = .next (s.withPart (answer e .state [] p))) ∧
      (allStopAsserted s.part = false → (s.part.slots.read i).state ≠ .idle → e.frame.arg 3 = 0 →
        exec .showStart s = .next (s.withPart (answer e .busy [] p))) ∧
      (allStopAsserted s.part = false → (s.part.slots.read i).state = .idle ∨ e.frame.arg 3 ≠ 0 →
        (∀ why, (checkShow k p).1 = .error why → exec .showStart s = .next (s.withPart (answer e why [] (checkShow k p).2))) ∧
        (∀ c, (checkShow k p).1 = .ok c → repetitions c.copy (clockHour s.part) = none →
          exec .showStart s = .next (s.withPart (answer e .state [] (checkShow k p).2)))) ∧
      ∀ (c : CheckedShow) (reps : Nat), allStopAsserted s.part = false →
        (s.part.slots.read i).state = .idle ∨ e.frame.arg 3 ≠ 0 →
        (checkShow k p).1 = .ok c → repetitions c.copy (clockHour s.part) = some reps →
        ∃ begun, let q := readDueSteps i begun
          exec .showStart s = .next (s.withPart (answer e .done [] q)) ∧ (q.slots.read i).state = .running ∧
          (q.slots.read i).showIx = k ∧ (q.slots.read i).source = .management ∧
          (q.slots.read i).rank = 0 ∧ (q.slots.read i).reps = reps ∧
          (q.slots.read i).origin = s.part.lineTime ∧ (q.slots.read i).hold = none ∧
          (q.slots.read i).waiting = (s.part.slots.read i).waiting ∧
          (q.slots.read i).copy = { c.copy with figures := (q.slots.read i).copy.figures } ∧
          (let names := fun (n : Fin 8) (x : FigIx) => ∃ item, c.copy.items[n.val]? = some item ∧ item.figure = x
           let governs := fun (n : Fin 8) (x : FigIx) => names n x ∧ ∀ m, m < n → ¬ names m x
           let implies := fun (n : Fin 8) (x : FigIx) => ∃ own rec, governs n own ∧
             (readFigure own [0] s.part).1 = some rec ∧ rec.twin = some x ∧ x ≠ own
           ∀ x d, (q.slots.read i).copy.figures.lookup x = some d ↔
             d.role = .item ∧ governs d.item x ∨
             d.role = .twin ∧ (∀ n, ¬ names n x) ∧ implies d.item x ∧ ∀ n, n < d.item → ¬ implies n x) ∧
          (∀ j, j ≠ i → q.slots.read j = s.part.slots.read j) ∧ ownersAgree q ∧
          q.filter = p.filter ∧ q.cal = s.part.cal ∧ sameGround s.part q ∧ q.guard = s.part.guard ∧
          ownersAgree begun ∧ member begun.events.latches 22 = true ∧ member q.events.latches 22 = true ∧
          begun.slots = q.slots ∧ (∀ j, j ≠ i → q.contexts.read j = s.part.contexts.read j) ∧
          (c.copy.barrel = 0 → (begun.contexts.read i).state = .done ∧ (begun.contexts.read i).rowMap = []) ∧
          (c.copy.barrel ≠ 0 → ∃ h map,
            (readRecord .barrel c.copy.barrel [0, 1] s.part).1.map barrelHeader = some h ∧ map.length = h.rows ∧
            (∀ n, n < h.rows → (readWord .barrel (c.copy.barrel + 2 + n / 4) s.part).1.map (byteAt · (n % 4)) = map[n]?) ∧
            begun.contexts.read i = {
              state := .reading, start := c.copy.barrel, header := h, rowMap := map, rep := 0, step := 0
              lastStep := min (h.steps - 1) ((c.copy.duration + h.stepLength - 1) / h.stepLength - 1) })

/-- SHOW_HOLD (R34): a RUNNING slot becomes HELD at the present line time, and nothing else but the reply
changes; a slot that is IDLE or HELD is refused with STATE, and one above 2 with RANGE. A held slot's time is
frozen, its show does not end and no step is due in it. -/
def Obligations.ShowHoldFreezesTheSlot : Prop :=
  ∀ (s : State) (e : IntakeEntry) (rest : List IntakeEntry), Waiting .showHold e rest s →
    let p := setManagement rest s.part
    (3 ≤ e.frame.arg 1 → exec .showHold s = .next (s.withPart (answer e .range [] p))) ∧
    ∀ i : SlotIx, e.frame.arg 1 = i.val →
      ((s.part.slots.read i).state ≠ .running → exec .showHold s = .next (s.withPart (answer e .state [] p))) ∧
      ((s.part.slots.read i).state = .running →
        let q := setSlot i (fun x => { x with state := .held, hold := some s.part.lineTime }) p
        exec .showHold s = .next (s.withPart (answer e .done [] q)) ∧ q.bellOwner = s.part.bellOwner ∧
          q.figOwner = s.part.figOwner ∧
          ∀ now, (q.slots.read i).time now = (s.part.slots.read i).time s.part.lineTime ∧
            endDue i { q with lineTime := now } = false ∧ stepDue i { q with lineTime := now } = false)

/-- SHOW_RESUME (R35): a HELD slot becomes RUNNING with its origin moved on by the held interval, so that its
time goes on from where it was frozen; then the steps within reach are read, and a show held at its end
instant ends. A slot that is not HELD is refused with STATE, and one above 2 with RANGE. -/
def Obligations.ShowResumeContinuesTheSlot : Prop :=
  ∀ (s : State) (e : IntakeEntry) (rest : List IntakeEntry), Waiting .showResume e rest s →
    let p := setManagement rest s.part
    (3 ≤ e.frame.arg 1 → exec .showResume s = .next (s.withPart (answer e .range [] p))) ∧
    ∀ i : SlotIx, e.frame.arg 1 = i.val →
      ((s.part.slots.read i).state ≠ .held → exec .showResume s = .next (s.withPart (answer e .state [] p))) ∧
      ∀ h, (s.part.slots.read i).state = .held → (s.part.slots.read i).hold = some h → h ≤ s.part.lineTime →
        let q := setSlot i (fun x => { x with
          state := .running, origin := x.origin + (s.part.lineTime - h), hold := none }) p
        exec .showResume s = .next (s.withPart (answer e .done [] (endShow i (readDueSteps i q)))) ∧
          (q.slots.read i).time s.part.lineTime = (s.part.slots.read i).time s.part.lineTime

/-- SHOW_STOP (R36): a busy slot becomes IDLE without source 23, the ownership table is taken afresh, and the
pending start is removed by the discard option and otherwise considered; a stop of an IDLE slot changes
nothing but the reply. -/
def Obligations.ShowStopIdlesTheSlot : Prop :=
  ∀ (s : State) (e : IntakeEntry) (rest : List IntakeEntry), Waiting .showStop e rest s →
    let p := setManagement rest s.part
    (3 ≤ e.frame.arg 1 → exec .showStop s = .next (s.withPart (answer e .range [] p))) ∧
    ∀ i : SlotIx, e.frame.arg 1 = i.val →
      ((s.part.slots.read i).state = .idle → exec .showStop s = .next (s.withPart (answer e .done [] p))) ∧
      ((s.part.slots.read i).state ≠ .idle →
        let q := recompute (setContext i (fun _ => BarrelContext.initial)
          (setSlot i (fun x => { x with state := .idle, hold := none }) p))
        (e.frame.arg 2 ≠ 0 → exec .showStop s = .next (s.withPart (answer e .done [] (setSlot i (fun x => { x with waiting := none }) q)))) ∧
        (e.frame.arg 2 = 0 → exec .showStop s = .next (s.withPart (answer e .done [] (considerPending i q)))))

/-- SHOW_END and PENDING_EXPIRY (R24, R33): a RUNNING show whose time has reached E ends with source 23 and
its pending start is considered: it leaves the slot's record and is carried out as a request for a slot that is IDLE. With
none the slot stays IDLE. A HELD show does not end, and a pending start whose expiry has come is discarded with source 24.
A recomputation of the ownership table (R39, R41 to R43, R72, R90) gives each bell and each figure to the first slot, in
the order 0, 1, 2, that is busy and lists it; withdraws the strikes of the bells that their slots have lost, and when the
head was one of them tests the new head for release once all are gone (the model's choice, assumption log 37); and
retargets each figure whose owner changes and no other. A retarget sets the owner and the drive. An IDLE figure that gains
an owner becomes DRIVEN with its setpoint inside its soft limits, or as it was when its record is uncorrectable, and its
silence begun; a DRIVEN figure that loses its owner becomes HOMING; a HOMING one that gains an owner becomes DRIVEN; and
nothing else of a figure changes. -/
def Obligations.ShowsEndAndPendingStartsExpire : Prop :=
  (∀ p : Part, let t := recompute p
    let slot := p.slots.read
    let owns := fun (o : Option SlotIx) (lists : SlotIx → Prop) => ∀ i, o = some i ↔
      (slot i).state ≠ .idle ∧ lists i ∧ ∀ j, j < i → ¬ ((slot j).state ≠ .idle ∧ lists j)
    let lost := fun (e : Strike) => p.bellOwner.read e.bell = some e.slot && t.bellOwner.read e.bell ≠ some e.slot
    let stay := setQueue (p.strikes.queue.filter fun e => !lost e) p
    let left := if p.strikes.queue.head?.any lost then releaseDue stay else stay
    (∀ b : BellIx, owns (t.bellOwner.read b) fun i => (slot i).copy.bells.getLsbD b.val = true) ∧
    (∀ k : FigIx, owns (t.figOwner.read k) fun i => ((slot i).copy.figures.lookup k).isSome = true) ∧
    t.strikes = left.strikes ∧ t.out.strike = left.out.strike ∧ t.slots = p.slots ∧ t.contexts = p.contexts ∧
    ∀ k, let g := p.figures.read k
      let o := t.figOwner.read k
      let h := { g with owner := o, drive := o.bind fun i => (slot i).copy.figures.lookup k }
      (o = p.figOwner.read k → t.figures.read k = g) ∧
      (o ≠ p.figOwner.read k → t.figures.read k = match g.state, o with
        | .idle, some _ => match (readFigure k [0, 2] p).1 with
          | some rec => { h with
              state := .driven, setpoint := max rec.lower (min rec.upper g.setpoint), lag := false, stall := none
              silence := some p.lineTime
              brake := if rec.node = 0 then g.brake else some (BitVec.ofNat 8 rec.node, BitVec.ofNat 8 rec.channel) }
          | none => { h with state := .driven, lag := false, stall := none, silence := some p.lineTime }
        | .driven, none => { h with state := .homing }
        | .homing, some _ => { h with state := .driven }
        | _, _ => h)) ∧
  ∀ (s : State) (i : SlotIx), s.part.phase = .running → let x := s.part.slots.read i
    (x.state = .running → (x.reps - 1) * (x.copy.duration + x.copy.gap) + x.copy.duration ≤ s.part.lineTime - x.origin →
      let q := recompute (latchEvent 23 (setContext i (fun _ => BarrelContext.initial)
        (setSlot i (fun y => { y with state := .idle, hold := none }) s.part)))
      exec (.showEnd i) s = .next (s.withPart (considerPending i q)) ∧ (x.waiting = none → considerPending i q = q) ∧
        ∀ w, x.waiting = some w → allStopAsserted s.part = false → considerPending i q = requestStart {
          slot := i, showIx := w.showIx, source := w.source, rank := w.rank, hour := w.hour, trigger := w.trigger }
          (setSlot i (fun y => { y with waiting := none }) q)) ∧
    (x.state = .held → exec (.showEnd i) s = .next s) ∧
    (∀ w, x.waiting = some w → w.expiry ≤ s.part.lineTime → exec (.pendingExpiry i) s = .next (s.withPart (latchEvent 24 (setSlot i (fun y => { y with waiting := none }) s.part))))

/-! ## The barrel reader and the strike scheduler -/

/-- BARREL_STEP_READ (R48 to R54): every step within reach is read, one after another: afterwards the slot's context
is no longer READING or the step at its cursor lies beyond slot time plus lookahead. The slots, the ownership table,
the calendar, the figures and every table word are unchanged. A step is read row by row, and then its cursor advances
to the next step, to the next repetition, or to DONE. A row's word that is uncorrectable counts a barrel error; a
velocity of 0 gives no note; a row map entry above 47 or a bell with node 0 counts as no-bell; and any other note is
handed to the scheduler with its velocity, at most 127, and its instant: the step's offset with the element's timing,
at most half a step and not before its repetition's start. -/
def Obligations.BarrelReadsEveryDueStep : Prop :=
  (∀ (s : State) (i : SlotIx), s.part.phase = .running → (s.part.slots.read i).state = .running →
    (s.part.contexts.read i).rep < (s.part.slots.read i).reps → (s.part.contexts.read i).step ≤ (s.part.contexts.read i).lastStep →
    (∃ t, exec (.barrelStepRead i) s = .next t ∧ t.pending = s.pending ∧
      ((t.part.contexts.read i).state = .reading →
        (t.part.slots.read i).time s.part.lineTime + s.part.settings.lookahead <
          (t.part.contexts.read i).rep * ((t.part.slots.read i).copy.duration + (t.part.slots.read i).copy.gap) +
            (t.part.contexts.read i).step * (t.part.contexts.read i).header.stepLength) ∧
      t.part.slots = s.part.slots ∧ t.part.bellOwner = s.part.bellOwner ∧ t.part.figOwner = s.part.figOwner ∧
      t.part.cal = s.part.cal ∧ t.part.figures = s.part.figures ∧ t.part.guard = s.part.guard ∧
      t.part.filter = s.part.filter ∧ sameGround s.part t.part ∧
      ∀ j, j ≠ i → t.part.contexts.read j = s.part.contexts.read j) ∧
    (stepDue i s.part = true →
      exec (.barrelStepRead i) s = exec (.barrelStepRead i) (s.withPart (readStep i s.part))) ∧
    (stepDue i s.part = false → exec (.barrelStepRead i) s = .next s)) ∧
  ∀ (i : SlotIx) (p : Part), let x := p.contexts.read i
    let next := if x.step < x.lastStep then { x with step := x.step + 1 }
      else if x.rep + 1 < (p.slots.read i).reps then { x with rep := x.rep + 1, step := 0 } else { x with state := .done }
    readStep i p = setContext i (fun _ => next) ((List.range x.header.rows).foldl (fun q k => readRow i x k q) p) ∧
    ∀ k : Nat, let at_ : Nat := x.start + 2 + (x.header.rows + 3) / 4 + k * x.header.span + x.step * x.header.size / 4
      let r := readWord .barrel at_ p
      let place := x.step * x.header.size % 4
      let half : Int := (x.header.stepLength / 2 : Nat)
      let copy := (p.slots.read i).copy
      (r.1 = none → readRow i x k p = setCounts (fun c => { c with barrelError := bump c.barrelError }) r.2) ∧
      ∀ w, r.1 = some w →
        let timing := if x.header.size = 1 then 0 else max (-half) (min half (signedByte (byteAt w (place + 1))))
        let instant := x.rep * (copy.duration + copy.gap) + (max 0 ((x.step * x.header.stepLength : Nat) + timing)).toNat
        (byteAt w place = 0 → readRow i x k p = r.2) ∧
        (byteAt w place ≠ 0 → 47 < x.rowMap.getD k 255 →
          readRow i x k p = setCounts (fun c => { c with noBell := bump c.noBell }) r.2) ∧
        ∀ b : BellIx, byteAt w place ≠ 0 → x.rowMap.getD k 255 = b.val → let m := readBell b [0] r.2
          (m.1 = none → readRow i x k p = m.2) ∧
          ∀ rec, m.1 = some rec →
            (rec.node = 0 → readRow i x k p = setCounts (fun c => { c with noBell := bump c.noBell }) m.2) ∧
            (rec.node ≠ 0 → readRow i x k p = handNote i b (min (byteAt w place) 127) instant m.2)

/-- STRIKE_RELEASE (R65): the released entries are the first of the strike queue, in order, and go to the end
of OQ-STRIKE; afterwards the head is not due or OQ-STRIKE is full. Nothing changes but the two queues and the
bells' last released fire instants. -/
def Obligations.StrikeReleaseTakesTheDueHeads : Prop :=
  ∀ s : State, s.part.phase = .running → ∃ (gone rest : List Strike) (bells : Bank BellState 48),
    s.part.strikes.queue = gone ++ rest ∧
    exec .strikeRelease s = .next (s.withPart ({ s.part with
      strikes := { queue := rest, bells := bells }
      out := { s.part.out with strike :=
        s.part.out.strike ++ gone.map fun g => StrikeFrame.mk g.bell g.velocity g.fire } })) ∧
    (∀ g ∈ gone, g.fire - s.part.settings.lineAllowance ≤ s.part.lineTime) ∧
    (∀ g, rest.head? = some g → (s.part.lineTime : Int) < g.fire - s.part.settings.lineAllowance ∨
      16 ≤ s.part.out.strike.length + gone.length) ∧
    (∀ b, (bells.read b).heat = (s.part.strikes.bells.read b).heat ∧
      (bells.read b).health = (s.part.strikes.bells.read b).health ∧
      (bells.read b).released =
        (match (gone.filter fun g => g.bell = b).getLast? with
          | some g => some g.fire
          | none => (s.part.strikes.bells.read b).released))

/-- R59 to R65: what becomes of a note. One whose slot does not own its bell is dropped as shadowed, and one whose
bell's record is uncorrectable is lost; one for a bell OUT OF SERVICE goes on to its substitute, softened by the sub
gain, when that is IN SERVICE, owned by the same slot and fitted, and is else dropped with the no-substitute count
(the words read and the order of the tests are those of assumption logs 7 and 8). Its fire instant is its instant less
the flight time of its velocity. A note within its bell's recovery of a released strike is dropped as merged; one near
a queued strike of its bell is too, and the first such strike takes the larger velocity; one that finds 64 strikes
queued is dropped with source 26. Any other note stands behind every entry that fires no later, and is tested for
release when it becomes the head. -/
def Obligations.NoteIsInsertedInFireOrder : Prop :=
  (∀ (i : SlotIx) (b : BellIx) (rec : BellRecord) (v n : Nat) (p : Part),
    let f : Int := (n : Int) - ((rec.flightBase + rec.flightExtra * (127 - v) / 127 : Nat) : Int)
    let merged := setCounts fun c => { c with merged := bump c.merged }
    (∀ l, (p.strikes.bells.read b).released = some l → f - l < (rec.recovery : Int) → placeNote i b rec v n p = merged p) ∧
    ((∀ l, (p.strikes.bells.read b).released = some l → (rec.recovery : Int) ≤ f - l) →
      (∀ before x after, p.strikes.queue = before ++ x :: after → x.bell = b → (x.fire - f).natAbs < rec.recovery →
        (∀ y ∈ before, y.bell = b → rec.recovery ≤ (y.fire - f).natAbs) →
        placeNote i b rec v n p = merged (setQueue (before ++ { x with velocity := max x.velocity v } :: after) p)) ∧
      ((∀ x ∈ p.strikes.queue, x.bell = b → rec.recovery ≤ (x.fire - f).natAbs) →
        (64 ≤ p.strikes.queue.length →
          placeNote i b rec v n p = latchEvent 26 (setCounts (fun c => { c with queueFull := bump c.queueFull }) p)) ∧
        (strikesOrdered p → p.strikes.queue.length < 64 →
          ∃ before after, p.strikes.queue = before ++ after ∧ (∀ x ∈ before, x.fire ≤ f) ∧ (∀ x ∈ after, f < x.fire) ∧
            let q := setQueue (before ++ { slot := i, bell := b, velocity := v, fire := f } :: after) p
            placeNote i b rec v n p = if before = [] then releaseDue q else q)))) ∧
  ∀ (i : SlotIx) (b : BellIx) (v instant : Nat) (p : Part),
    let n := (p.slots.read i).origin + instant
    let lost := setCounts fun c => { c with noSubstitute := bump c.noSubstitute }
    (p.bellOwner.read b ≠ some i →
      handNote i b v instant p = setCounts (fun c => { c with shadowed := bump c.shadowed }) p) ∧
    (p.bellOwner.read b = some i → (p.strikes.bells.read b).health = .inService →
      let r := readBell b [0, 1] p
      (r.1 = none → handNote i b v instant p = r.2) ∧
      ∀ rec, r.1 = some rec → handNote i b v instant p = placeNote i b rec v n r.2) ∧
    (p.bellOwner.read b = some i → (p.strikes.bells.read b).health ≠ .inService →
      let r := readBell b [3] p
      (r.1 = none → handNote i b v instant p = r.2) ∧
      ∀ rec, r.1 = some rec →
        (rec.substitute = none → handNote i b v instant p = lost r.2) ∧
        ∀ t, rec.substitute = some t →
          ((p.strikes.bells.read t).health ≠ .inService ∨ p.bellOwner.read t ≠ some i → handNote i b v instant p = lost r.2) ∧
          ((p.strikes.bells.read t).health = .inService → p.bellOwner.read t = some i →
            let m := readBell t [0, 1] r.2
            (m.1 = none → handNote i b v instant p = lost m.2) ∧
            ∀ rt, m.1 = some rt →
              (rt.node = 0 → handNote i b v instant p = lost m.2) ∧
              (rt.node ≠ 0 → handNote i b v instant p = placeNote i t rt (max 1 (v * rec.subGain / 100)) n m.2)))

/-- COOLING_TICK (R71): with no table word disturbed, at a multiple of 10 ms, every bell's heat falls by the
larger of 1 and floor(h / 2^shift), and not below 0; nothing else changes. -/
def Obligations.CoolingTickLowersTheHeat : Prop :=
  ∀ s : State, s.part.phase = .running → s.part.lineTime % 10 = 0 → s.part.table.clean →
    ∃ bells, exec .coolingTick s = .next (s.withPart ({ s.part with strikes := { s.part.strikes with bells := bells } })) ∧
      ∀ b, let h := (s.part.strikes.bells.read b).heat
        let shift := (bellRecord fun k => (wordAt s.part.table.words (64 + 4 * b.val + k)).data).coolShift
        bells.read b = { s.part.strikes.bells.read b with heat := h - max 1 (h / 2 ^ shift) }

/-- COIL_REPORT_TAKEN (R75, R76, R135): an entry that is no COIL frame of two bytes is rejected with its filter
hit; one of no known status or for no bell is counted; a report of a known status for a bell acts by that status: OPEN and SHORT put the bell out of service with
its strikes withdrawn and source 17 latched, HOT raises its heat to the limit, OK changes nothing. The scan reads every
bell record (assumption log 9), of each the word of node and channel and, for HOT, that of the heat limit (assumption
log 7). The report belongs to the first bell whose record reads well with that node and channel, and the limit is that
record's; a record of node 0 and one that is uncorrectable are passed over. -/
def Obligations.CoilReportActsByItsStatus : Prop :=
  ∀ (s : State) (e : IntakeEntry) (rest : List IntakeEntry), s.part.phase = .running →
    s.part.filter.bells.entries = e :: rest →
    let p := setBellsIntake (fun q => { q with entries := rest }) s.part
    let good := e.frame.kind = Kind.coil ∧ e.frame.payload.length = 2
    let scanned := fun hot => scanBells e.frame.source.toNat (e.frame.arg 0) hot allBells p
    let mapped := fun (hot : Bool) (b : BellIx) (rec : BellRecord) =>
      (readBell b (if hot then [0, 2] else [0]) s.part).1 = some rec ∧ rec.node ≠ 0 ∧ rec.node = e.frame.source.toNat ∧
        rec.channel = e.frame.arg 0
    (∀ hot, (scanned hot).1 = none ↔ ∀ b rec, ¬ mapped hot b rec) ∧
    (∀ hot b limit, (scanned hot).1 = some (b, limit) ↔
      (∃ rec, mapped hot b rec ∧ limit = rec.heatLimit) ∧ ∀ j rec, j < b → ¬ mapped hot j rec) ∧
    (¬ good → exec .coilReportTaken s = .next (s.withPart (setCounts (fun c => { c with coilUnmatched := bump c.coilUnmatched })
        (setBellsIntake (fun q => { q with rejected := some e.hit }) p)))) ∧
    (good → 3 < e.frame.arg 1 → exec .coilReportTaken s = .next (s.withPart (setCounts (fun c => { c with coilUnmatched := bump c.coilUnmatched }) p))) ∧
    (good → e.frame.arg 1 < 3 → (scanned false).1 = none → exec .coilReportTaken s = .next (s.withPart
      (setCounts (fun c => { c with coilUnmatched := bump c.coilUnmatched }) (scanned false).2))) ∧
    (good → e.frame.arg 1 = 3 → (scanned true).1 = none → exec .coilReportTaken s = .next (s.withPart
      (setCounts (fun c => { c with coilUnmatched := bump c.coilUnmatched }) (scanned true).2))) ∧
    ∀ b limit,
      (good → (scanned false).1 = some (b, limit) → e.frame.arg 1 = 0 →
        exec .coilReportTaken s = .next (s.withPart ((scanned false).2))) ∧
      (good → (scanned false).1 = some (b, limit) → e.frame.arg 1 = 1 ∨ e.frame.arg 1 = 2 →
        exec .coilReportTaken s = .next (s.withPart (latchEvent 17
          (withdrawBell b (setBell b (fun x => { x with health := .outFault }) (scanned false).2))))) ∧
      (good → (scanned true).1 = some (b, limit) → e.frame.arg 1 = 3 →
        exec .coilReportTaken s = .next (s.withPart (setBell b (fun x => { x with heat := limit }) (scanned true).2)))

/-- BELL_SERVICE (R77, R73, R65): IN puts the bell IN SERVICE; OUT puts it OUT OF SERVICE (MANUAL) and withdraws its
strikes, and when the head of the strike queue was one of them the new head is tested for release; the reply gives its health. A bell above 47 or another setting is refused with RANGE. -/
def Obligations.BellServiceSetsTheHealth : Prop :=
  ∀ (s : State) (e : IntakeEntry) (rest : List IntakeEntry), Waiting .bellService e rest s →
    let p := setManagement rest s.part
    ((48 ≤ e.frame.arg 1 ∨ 2 ≤ e.frame.arg 2) → exec .bellService s = .next (s.withPart (answer e .range [] p))) ∧
    ∀ b : BellIx, e.frame.arg 1 = b.val →
      (e.frame.arg 2 = 0 → exec .bellService s = .next (s.withPart (answer e .done [0] (setBell b (fun x => { x with health := .inService }) p)))) ∧
      (e.frame.arg 2 = 1 →
        let q := setQueue (s.part.strikes.queue.filter fun x => x.bell ≠ b)
          (setBell b (fun x => { x with health := .outManual }) p)
        exec .bellService s = .next (s.withPart (answer e .done [2]
          (if s.part.strikes.queue.head?.any (fun x => x.bell = b) then releaseDue q else q))))

/-! ## The figures -/

/-- The manual's test values: the check of two lists of characters (chapter 07, The check), the worked path of a
jump and a loop, and the two roundings of R85 (chapter 05). -/
def Obligations.TestValuesOfTheManual : Prop :=
  crc [0x31, 0x32, 0x33, 0x34, 0x35, 0x36, 0x37, 0x38, 0x39] = 0x29B1 ∧ crc [0] = 0xE1F0 ∧
    let path : PathData := { looped := true, frames := [(0, 0), (1000, 400), (1000, -400), (3000, 0)] }
    path.target 500 = 200 ∧ path.target 999 = 400 ∧ path.target 1000 = -400 ∧ path.target 2000 = -200 ∧
      path.target 4500 = -300 ∧ path.target 6000 = 0 ∧
      (PathData.mk false [(0, 0), (2000, 1001)]).target 1000 = 501 ∧
      (PathData.mk false [(0, 0), (2000, -1001)]).target 1000 = -501

/-- MOTION_PERIOD (R82, R88): at a multiple of 20 ms only DRIVEN and HOMING figures are touched, and no stored
setpoint moves by more than 2,000, the largest max step; at another line time nothing happens. The slots, the
ownership table, the guard lines, the calendar and every table word are unchanged. And every step of the machine, of
whatever command, keeps every stored setpoint a signed number of sixteen bits (R80). -/
def Obligations.MotionPeriodMovesNoSetpointTooFar : Prop :=
  (∀ s t : State, setpointsInRange s.part → step s = .next t → setpointsInRange t.part) ∧
  ∀ s : State, s.part.phase = .running →
    (s.part.lineTime % 20 ≠ 0 → exec .motionPeriod s = .next s) ∧
    ∃ t, exec .motionPeriod s = .next t ∧ t.pending = s.pending ∧ t.part.slots = s.part.slots ∧
      t.part.bellOwner = s.part.bellOwner ∧ t.part.figOwner = s.part.figOwner ∧ t.part.guard = s.part.guard ∧
      t.part.cal = s.part.cal ∧ t.part.strikes = s.part.strikes ∧ t.part.filter = s.part.filter ∧
      sameGround s.part t.part ∧
      ∀ k, let g := s.part.figures.read k
        (g.state ≠ .driven → g.state ≠ .homing → t.part.figures.read k = g) ∧
          ((t.part.figures.read k).setpoint - g.setpoint).natAbs ≤ 2000

/-- MOTION_PERIOD (R82, R83 to R89, R93, R94): a fitted figure, alone in motion, that is neither silent nor stalled and
stands within its soft limits is sent one step towards its target in a POSE frame: the target of its path while it
is DRIVEN, its home while it is HOMING. A HOMING figure is IDLE when it has come home. The frame's tag is a free
byte (assumption log 4). A period visits the sixteen figures in order. A visit passes over a figure that does not move; it
faults one whose record or path is uncorrectable, that is SILENT or stalls, or that stands outside its soft limits; a
figure that is not fitted keeps its setpoint, with its silence restarted while it is DRIVEN and IDLE in place of HOMING; and
any other has its POSE frame appended, with source 30 latched when its lag flag goes from clear to set, or skipped with the
motion-skip count when OQ-MOTION holds 32. The target of a DRIVEN figure is its stored setpoint before its item begins, and
else that of its item's path at the path time, mirrored for a twin with its mirror flag set. What a fault does is
said in PositionReportIsStored. -/
def Obligations.MotionPeriodSendsOneStepToTheTarget : Prop :=
  (∀ (s : State) (k : FigIx) (rec : FigureRecord) (target : Int), s.part.phase = .running → s.part.lineTime % 20 = 0 →
    let g := s.part.figures.read k
    let r := readFigure k (figurePeriodWords g.takesHome) s.part
    (∀ j, j ≠ k → (s.part.figures.read j).state ≠ .driven ∧ (s.part.figures.read j).state ≠ .homing) →
    r.1 = some rec → rec.node ≠ 0 →
    (g.state = .homing ∧ target = rec.home ∨ g.state = .driven ∧ (drivenTarget (r.2.figures.read k) rec r.2).1 = some target) →
    (∀ t, g.silence = some t → s.part.lineTime - t < s.part.settings.reportTimeout) →
    (∀ t, g.stall = some t → s.part.lineTime - t < rec.stallTime) →
    rec.lower ≤ g.setpoint → g.setpoint ≤ rec.upper → s.part.out.motion.length < 32 →
    let goal := max rec.lower (min rec.upper target)
    let z := g.setpoint + max (-(rec.maxStep : Int)) (min rec.maxStep (goal - g.setpoint))
    let lag : Bool := rec.maxStep < (goal - g.setpoint).natAbs
    let home : Bool := g.state = .homing ∧ z = goal
    let f : Frame := {
      dest := BitVec.ofNat 8 rec.node, source := s.part.settings.ownAddress, kind := Kind.pose
      tag := Config.freeByte s.part.freeUsed
      payload := BitVec.ofNat 8 rec.channel :: bytesOf 2 (twosComplement 16 z) ++ [flagByte lag] }
    ∃ t, exec .motionPeriod s = .next t ∧ t.part.out.motion = s.part.out.motion ++ [{ figure := k, frame := f }] ∧
      (t.part.figures.read k).setpoint = z ∧ (t.part.figures.read k).state = (if home then .idle else g.state) ∧
      (home = false → (t.part.figures.read k).lag = lag) ∧ (∀ j, j ≠ k → t.part.figures.read j = s.part.figures.read j)) ∧
  (∀ s : State, s.part.phase = .running → s.part.lineTime % 20 = 0 →
    exec .motionPeriod s = .next (s.withPart ((List.finRange 16).foldl (fun q k => visitFigure k q) s.part))) ∧
  (∀ (g : LiveFigure) (rec : FigureRecord) (p : Part) (i : SlotIx) (d : Drive) (item : FigureItem),
    g.owner = some i → g.drive = some d → (p.slots.read i).copy.items[d.item.val]? = some item →
    let x := p.slots.read i
    let t := x.time p.lineTime
    let period := x.copy.duration + x.copy.gap
    let τ : Int := (min (t - min (t / period) (x.reps - 1) * period) x.copy.duration : Nat) - (item.offset : Int)
    let path := readPath item.path p
    (τ < 0 → drivenTarget g rec p = (some g.setpoint, p)) ∧
    (0 ≤ τ → drivenTarget g rec p = (path.1.map fun w =>
      if d.role = .twin ∧ rec.mirror = true then max (-32768) (min 32767 (2 * rec.home - w.target τ.toNat))
      else w.target τ.toNat, path.2))) ∧
  ∀ (k : FigIx) (p : Part), let g := p.figures.read k
    let r := readFigure k (figurePeriodWords g.takesHome) p
    (g.state ≠ .driven → g.state ≠ .homing → visitFigure k p = p) ∧
    (g.state = .driven ∨ g.state = .homing →
      (r.1 = none → visitFigure k p = faultMoving k .table r.2) ∧
      ∀ rec, r.1 = some rec →
        let silent : Bool := g.silence.any fun t => p.settings.reportTimeout ≤ p.lineTime - t
        let stalled : Bool := g.stall.any fun t => rec.stallTime ≤ p.lineTime - t
        let within : Bool := rec.lower ≤ g.setpoint ∧ g.setpoint ≤ rec.upper
        (rec.node = 0 → g.state = .driven →
          visitFigure k p = setFigure k (fun g => { g with silence := some p.lineTime }) r.2) ∧
        (rec.node = 0 → g.state = .homing → visitFigure k p = setFigure k (fun g => { g with
          state := .idle, drive := none, lag := false, stall := none, silence := none }) r.2) ∧
        (rec.node ≠ 0 → silent = true → visitFigure k p = faultMoving k .silent r.2) ∧
        (rec.node ≠ 0 → silent = false → stalled = true → visitFigure k p = faultMoving k .stall r.2) ∧
        (rec.node ≠ 0 → silent = false → stalled = false → within = false →
          visitFigure k p = faultMoving k .table r.2) ∧
        (rec.node ≠ 0 → silent = false → stalled = false → within = true →
          let aim := if g.state = .homing then (some rec.home, r.2) else drivenTarget (r.2.figures.read k) rec r.2
          (aim.1 = none → visitFigure k p = faultMoving k .table aim.2) ∧
          ∀ target, aim.1 = some target →
            let goal := max rec.lower (min rec.upper target)
            let z := g.setpoint + max (-(rec.maxStep : Int)) (min rec.maxStep (goal - g.setpoint))
            let lag : Bool := rec.maxStep < (goal - g.setpoint).natAbs
            let f : Frame := {
              dest := BitVec.ofNat 8 rec.node, source := p.settings.ownAddress, kind := Kind.pose
              tag := Config.freeByte aim.2.freeUsed
              payload := BitVec.ofNat 8 rec.channel :: bytesOf 2 (twosComplement 16 z) ++ [flagByte lag] }
            let sent := setFigure k (fun g => { g with setpoint := z, lag := lag })
              { aim.2 with out := { aim.2.out with motion := aim.2.out.motion ++ [⟨k, f⟩] }, freeUsed := aim.2.freeUsed + 1 }
            let lagged := if lag = true ∧ g.lag = false then latchEvent 30 sent else sent
            (32 ≤ p.out.motion.length →
              visitFigure k p = setCounts (fun c => { c with motionSkip := bump c.motionSkip }) aim.2) ∧
            (p.out.motion.length < 32 → visitFigure k p =
              if g.state = .homing ∧ z = goal then setFigure k (fun g => { g with
                state := .idle, drive := none, lag := false, stall := none, silence := none }) lagged
              else lagged)))

/-- POSITION_REPORT_TAKEN (R91 to R93, R95, R135): an entry that is no POSITION frame of four bytes is rejected
with its filter hit; a report mapped to a figure stores its position and stamp, and changes nothing else of a
figure that does not move; a moving figure that reports an end stop faults; another report restarts its silence,
starts or ends its stall by the follow limit, and faults it when the stall time has passed. The scan reads the word of
node and channel of every figure record, and the report belongs to the first whose record reads well with both; a
record that does not is passed over (assumption log 9). The stall test reads the follow limit and the stall time; with
either uncorrectable it is not made, which is the model's choice (assumption log 43). A fault of a moving figure takes
its POSE frames out of OQ-MOTION; appends one BRAKE frame to OQ-GUARD, to its brake address or with none to every drive and
channel 255, or counts a brake drop when that queue holds 16; makes it FAULTED with the reason, its lag flag clear and its
stall start none; and latches source 16. The BRAKE's tag is a free byte (assumption log 4). -/
def Obligations.PositionReportIsStored : Prop :=
  (∀ (k : FigIx) (why : FaultReason) (p : Part),
    let drive := (p.figures.read k).brake.getD (127, 255)
    let brake : Frame := { dest := drive.1, source := p.settings.ownAddress, kind := Kind.brake
                           tag := Config.freeByte p.freeUsed, payload := [drive.2] }
    let cleared := { p with out := { p.out with motion := p.out.motion.filter fun m => m.figure ≠ k } }
    let braked := if p.out.guard.length < 16
      then { cleared with out := { cleared.out with guard := p.out.guard ++ [brake] }, freeUsed := p.freeUsed + 1 }
      else { cleared with counts := { p.counts with brakeDrop := bump p.counts.brakeDrop } }
    faultMoving k why p = latchEvent 16 (setFigure k (fun g => { g with
      state := .faulted, fault := why, lag := false, stall := none }) braked)) ∧
  ∀ (s : State) (e : IntakeEntry) (rest : List IntakeEntry), s.part.phase = .running →
    s.part.filter.figures.entries = e :: rest →
    let p := setFiguresIntake (fun q => { q with entries := rest }) s.part
    let good := e.frame.kind = Kind.position ∧ e.frame.payload.length = 4
    let scan := scanFigures e.frame.source.toNat (e.frame.arg 0) allFigures p
    let z := signedHalf (e.frame.arg 1 * 256 + e.frame.arg 2)
    let mapped := fun k => ∃ rec, (readFigure k [0] s.part).1 = some rec ∧ rec.node ≠ 0 ∧
      rec.node = e.frame.source.toNat ∧ rec.channel = e.frame.arg 0
    (¬ good → exec .positionReportTaken s = .next (s.withPart
      (setCounts (fun c => { c with positionUnmatched := bump c.positionUnmatched })
        (setFiguresIntake (fun q => { q with rejected := some e.hit }) p)))) ∧
    (scan.1 = none ↔ ∀ k, ¬ mapped k) ∧ (∀ k, scan.1 = some k ↔ mapped k ∧ ∀ j, j < k → ¬ mapped j) ∧
    (good → scan.1 = none → exec .positionReportTaken s = .next (s.withPart
      (setCounts (fun c => { c with positionUnmatched := bump c.positionUnmatched }) scan.2))) ∧
    ∀ k, good → scan.1 = some k →
      let g := s.part.figures.read k
      let stored := setFigure k (fun g => { g with reported := some z, reportStamp := some e.stamp }) scan.2
      let heard := setFigure k (fun g => { g with silence := some e.stamp }) stored
      let limits := readFigure k [3, 4] heard
      ((g.state = .idle ∨ g.state = .frozen ∨ g.state = .faulted) → exec .positionReportTaken s = .next (s.withPart stored)) ∧
      ((g.state = .driven ∨ g.state = .homing) → e.frame.arg 3 ≠ 0 →
        exec .positionReportTaken s = .next (s.withPart (faultMoving k .endStop heard))) ∧
      ((g.state = .driven ∨ g.state = .homing) → e.frame.arg 3 = 0 → limits.1 = none →
        exec .positionReportTaken s = .next (s.withPart limits.2)) ∧
      ∀ rec, (g.state = .driven ∨ g.state = .homing) → e.frame.arg 3 = 0 → limits.1 = some rec →
        let off : Bool := rec.followLimit < (g.setpoint - z).natAbs
        let start := if off then some (g.stall.getD e.stamp) else none
        let q := setFigure k (fun g => { g with stall := start }) limits.2
        exec .positionReportTaken s = .next (s.withPart
          (if start.any (fun t => rec.stallTime ≤ s.part.lineTime - t) then faultMoving k .stall q else q))

/-- FIGURE_RELEASE (R98, R97, R95): the lines that are not asserted and have auto-resume clear leave the hold sets of the
figures named; a FAULTED figure that is still held becomes FROZEN with no fault reason, a FROZEN one that is
still held stays, and so does one that is not held up at all. A FAULTED or FROZEN figure that is held no more is
resynchronised. Figures not named are unchanged, and so is every
other block but the event unit, OQ-REPORT and the record of errors. The reply gives every figure's state and fault
reason. -/
def Obligations.FigureReleaseFreesTheFiguresNamed : Prop :=
  ∀ (s : State) (e : IntakeEntry) (rest : List IntakeEntry), Waiting .figureRelease e rest s →
    ∃ q : Part, exec .figureRelease s = .next (s.withPart (answer e .done (q.figures.toList.map LiveFigure.stateByte) q)) ∧
      sameButFigures (setManagement rest s.part) q ∧ q.guard = s.part.guard ∧
      ∀ k, let named := (e.frame.arg 1 * 256 + e.frame.arg 2).testBit k.val
        let g := s.part.figures.read k
        let left := g.hold &&& ~~~ releasable s.part
        (named = false → q.figures.read k = g) ∧
        (named = true → (q.figures.read k).hold = left) ∧
        (named = true → g.state = .faulted → left ≠ 0 →
          (q.figures.read k).state = .frozen ∧ (q.figures.read k).fault = .none) ∧
        (named = true → g.state = .frozen → left ≠ 0 → (q.figures.read k).state = .frozen) ∧
        (named = true → g.state = .idle ∨ g.state = .driven ∨ g.state = .homing → (q.figures.read k).state = g.state) ∧
        (named = true → g.state = .faulted ∨ g.state = .frozen → left = 0 → q.figures.read k = resyncedFrom s.part k g)

/-! ## Guard lines, events and pins -/

/-- GUARD_INPUT_SAMPLE (R101, R102): the first sample after a reset sets each taken level; a later one lengthens
the run of each line whose level differs and zeroes that of each other. The run waits at 10 for the step that takes
the change (the model's reading, assumption log 24), and the levels sampled are kept in a field of the model's own
(assumption log 15). Nothing else changes. -/
def Obligations.GuardSampleCountsTheRuns : Prop :=
  ∀ (s : State) (levels : BitVec 8), s.part.phase = .running →
    ∃ lines, exec (.guardInputSample levels) s = .next (s.withPart { s.part with
        guard := { lines := lines, awaitingSample := false, inputs := levels } }) ∧
      ∀ n, let l := s.part.guard.lines.read n
        let level := levels.getLsbD n.val
        lines.read n =
          if s.part.guard.awaitingSample = true then { l with taken := level, run := 0 }
          else if level = l.taken then { l with run := 0 }
          else { l with run := min (l.run + 1) 10 }

/-- GUARD_ASSERTION, GUARD_DEASSERTION, SETTLE_END (R101, R103, R104, R106): a taken change flips the level, zeroes the
run and sets the changed bit. An assertion of a NOTE line cancels its settle and latches its source; a
deassertion latches nothing, and begins a settle for a line with auto-resume set that is of class ZONE-FREEZE or
ALL-STOP or is still in some hold set. A line whose run is below 10 takes no change. When a settle deadline is reached it becomes none, and the line leaves
every hold set; a FROZEN figure that is held no more is resynchronised (R97), and any other changes in its hold set
alone, so a FAULTED figure stays FAULTED. -/
def Obligations.GuardChangesAreTaken : Prop :=
  ∀ (s : State) (n : LineIx), s.part.phase = .running → let l := s.part.guard.lines.read n
    (l.run ≠ 10 → exec (.guardAssertion n) s = .next s ∧ exec (.guardDeassertion n) s = .next s) ∧
    (l.run = 10 → l.asserted = false → l.config.cls = .note → exec (.guardAssertion n) s = .next (s.withPart
      (latchEvent n.val (setLine n (fun x =>
        { x with taken := x.config.activeHigh, run := 0, changed := true, settle := none }) s.part)))) ∧
    (l.run = 10 → l.asserted = true → exec (.guardDeassertion n) s = .next (s.withPart
      (setLine n (fun x => { x with
        taken := !x.config.activeHigh, run := 0, changed := true
        settle := if x.config.autoResume = true ∧
            (x.config.cls ≠ .note ∨ ∃ k : FigIx, (s.part.figures.read k).hold.getLsbD n.val = true)
          then some (s.part.lineTime + x.config.settleTime) else x.settle }) s.part))) ∧
    (settleDue n s.part = false → exec (.settleEnd n) s = .next s) ∧
    (settleDue n s.part = true → ∃ t, exec (.settleEnd n) s = .next t ∧ t.pending = s.pending ∧
      t.part.guard = (setLine n (fun x => { x with settle := none }) s.part).guard ∧ sameButFigures s.part t.part ∧
      ∀ k, let g := s.part.figures.read k
        let left := g.hold &&& ~~~ BitVec.twoPow 8 n.val
        (g.hold.getLsbD n.val = false → t.part.figures.read k = g) ∧
        (g.hold.getLsbD n.val = true → g.state ≠ .frozen ∨ left ≠ 0 → t.part.figures.read k = { g with hold := left }) ∧
        (g.hold.getLsbD n.val = true → g.state = .frozen → left = 0 → t.part.figures.read k = resyncedFrom s.part k g))

/-- GUARD_ASSERTION (R105, R104, R37): the assertion of an ALL-STOP line holds every figure, empties the strike queue,
OQ-STRIKE and OQ-MOTION, idles every slot and discards its pending start, leaves no owner, and makes STOP
active. Source 24 meets one cause for each pending start discarded, and source 23 none. One BRAKE frame to every drive is appended to OQ-GUARD from the own address, or lost with the brake-drop count
when that queue holds 16; its tag is a free byte (assumption log 4). The ports, the words of table memory, the calendar, the settings, the filters and the other lines stay. -/
def Obligations.AllStopStopsTheClock : Prop :=
  ∀ (s : State) (n : LineIx), s.part.phase = .running → (s.part.guard.lines.read n).run = 10 →
    (s.part.guard.lines.read n).asserted = false → (s.part.guard.lines.read n).config.cls = .allStop →
    let brake : Frame := { dest := 127, source := s.part.settings.ownAddress, kind := Kind.brake
                           tag := Config.freeByte s.part.freeUsed, payload := [255] }
    ∃ t, exec (.guardAssertion n) s = .next t ∧ t.pending = s.pending ∧ quiet t.part ∧ holdsEvery n t.part ∧
      (s.part.out.guard.length < 16 → t.part.out.guard = s.part.out.guard ++ [brake]) ∧
      (16 ≤ s.part.out.guard.length → t.part.out.guard = s.part.out.guard ∧
        t.part.counts.brakeDrop = bump s.part.counts.brakeDrop) ∧
      (let lost := (List.finRange 3).countP fun i => (s.part.slots.read i).waiting.isSome
       t.part.events.latches.getLsbD 24 = (s.part.events.latches.getLsbD 24 || 1 ≤ lost) ∧
         t.part.events.repeats.getLsbD 24 =
           (s.part.events.repeats.getLsbD 24 || (s.part.events.latches.getLsbD 24 && 1 ≤ lost) || 2 ≤ lost) ∧
         t.part.events.latches.getLsbD 23 = s.part.events.latches.getLsbD 23 ∧
         t.part.events.repeats.getLsbD 23 = s.part.events.repeats.getLsbD 23) ∧
      (∀ i, (t.part.slots.read i).waiting = none) ∧ (∀ b, t.part.bellOwner.read b = none) ∧
      (∀ k, t.part.figOwner.read k = none) ∧ stopActive t.part = true ∧ member t.part.events.latches n.val = true ∧
      sameGround s.part t.part ∧ t.part.cal = s.part.cal ∧ t.part.filter = s.part.filter ∧
      t.part.guard = (setLine n (fun x =>
        { x with taken := x.config.activeHigh, run := 0, changed := true, settle := none }) s.part).guard

/-- GUARD_ASSERTION (R104, R96, R95, R81): with no table word disturbed, the assertion of a ZONE-FREEZE line joins the
hold set of every fitted figure whose zone is in the line's zone set, and of no other; a figure that was moving or
IDLE is FROZEN by it. The read of a fitted figure's record sets its brake address, and changes nothing else of a
figure that is not held. The POSE frames of the figures that were moving leave OQ-MOTION, and for each of them, in
order, a BRAKE frame to its node and channel is appended to OQ-GUARD while that queue has room; the frames' tags are
free bytes (assumption log 4). The shows and the strikes go on. -/
def Obligations.ZoneFreezeHoldsItsZones : Prop :=
  ∀ (s : State) (n : LineIx), s.part.phase = .running → s.part.table.clean →
    let l := s.part.guard.lines.read n
    let r := fun k : FigIx => figureRecord fun i => (wordAt s.part.table.words (256 + 8 * k.val + i)).data
    let g := s.part.figures.read
    let reached := fun k => (r k).node ≠ 0 ∧ l.config.zones.getLsbD (r k).zone = true
    let moving := allFigures.filter fun k => reached k ∧ ((g k).state = .driven ∨ (g k).state = .homing)
    l.run = 10 → l.asserted = false → l.config.cls = .zoneFreeze →
    ∃ t, exec (.guardAssertion n) s = .next t ∧ t.pending = s.pending ∧ sameGround s.part t.part ∧
      t.part.slots = s.part.slots ∧ t.part.bellOwner = s.part.bellOwner ∧ t.part.figOwner = s.part.figOwner ∧
      t.part.strikes = s.part.strikes ∧ t.part.table = s.part.table ∧ t.part.cal = s.part.cal ∧
      t.part.filter = s.part.filter ∧ t.part.out.strike = s.part.out.strike ∧
      t.part.out.motion = (s.part.out.motion.filter fun m => m.figure ∉ moving) ∧
      t.part.out.guard = s.part.out.guard ++ ((moving.take (16 - s.part.out.guard.length)).zipIdx.map fun (k, j) =>
        { dest := BitVec.ofNat 8 (r k).node, source := s.part.settings.ownAddress, kind := Kind.brake
          tag := Config.freeByte (s.part.freeUsed + j), payload := [BitVec.ofNat 8 (r k).channel] }) ∧
      ∀ k, let braked := { g k with brake := some (BitVec.ofNat 8 (r k).node, BitVec.ofNat 8 (r k).channel) }
        ((r k).node = 0 → t.part.figures.read k = g k) ∧
        ((r k).node ≠ 0 → l.config.zones.getLsbD (r k).zone = false → t.part.figures.read k = braked) ∧
        (reached k → (g k).state = .frozen ∨ (g k).state = .faulted →
          t.part.figures.read k = { braked with hold := (g k).hold ||| BitVec.twoPow 8 n.val }) ∧
        (reached k → (g k).state ≠ .frozen → (g k).state ≠ .faulted → t.part.figures.read k = { braked with
          hold := (g k).hold ||| BitVec.twoPow 8 n.val, state := .frozen, lag := false, stall := none })

/-- PULSE_END (R111) and the latching of a cause (R108, R109): the first cause of a source sets its latch, and raises one
ATTENTION frame when the source is enabled and routed to FRAME: from the own address to the head end, with the attention
sequence as its tag, which goes on by one, and in its payload every source that is then latched, enabled and routed to
FRAME, with their repeat flags. The frame is lost with the reply-drop count when OQ-REPORT holds 16. A further cause only
sets the repeat flag. No other latch and no other block
changes, but for the count of lost frames. A pin (R110, R111, R105, R114) in LEVEL mode is active exactly when some enabled,
latched source is routed to it, and in PULSE mode during a pulse; STOP is active too while an ALL-STOP line is asserted and
in a reset, in which BEACON is not. A cause that reaches a pin in PULSE mode starts its pulse of 50 ms
afresh, and PULSE_END ends a pulse when line time reaches its end and not before. -/
def Obligations.CausesAreLatchedAndPulsesEnd : Prop :=
  (∀ p : Part,
    let driven := fun (pin : PinState) (route : BitVec 32) =>
      pin.mode = .level ∧ (∃ j : Fin 32, p.events.latches.getLsbD j.val = true ∧ p.events.enables.getLsbD j.val = true ∧
        route.getLsbD j.val = true) ∨ pin.mode = .pulse ∧ pin.pulseEnd ≠ none
    (stopActive p = true ↔ p.phase ≠ .running ∨ driven p.events.stop p.events.routeStop ∨
      ∃ n, (p.guard.lines.read n).config.cls = .allStop ∧
        (p.guard.lines.read n).taken = (p.guard.lines.read n).config.activeHigh) ∧
    (beaconActive p = true ↔ p.phase = .running ∧ driven p.events.beacon p.events.routeBeacon)) ∧
  ∀ (k : Fin 32) (p : Part), let q := latchEvent k.val p
    (∀ j : Fin 32, q.events.latches.getLsbD j.val = (p.events.latches.getLsbD j.val || j == k)) ∧
    (∀ j : Fin 32, q.events.repeats.getLsbD j.val =
      (p.events.repeats.getLsbD j.val || (j == k && p.events.latches.getLsbD j.val))) ∧
    (p.events.latches.getLsbD k.val = false → p.events.enables.getLsbD k.val = true → p.events.routeFrame.getLsbD k.val = true →
      let listed := q.events.latches &&& p.events.enables &&& p.events.routeFrame
      let f : Frame := {
        dest := 0, source := p.settings.ownAddress, kind := Kind.attention, tag := p.events.sequence
        payload := bytesOf 4 listed.toNat ++ bytesOf 4 (q.events.repeats &&& listed).toNat }
      q.events.sequence = p.events.sequence + 1 ∧
        (p.out.report.length < 16 → q.out = { p.out with report := p.out.report ++ [f] } ∧ q.counts = p.counts) ∧
        (16 ≤ p.out.report.length →
          q.out = p.out ∧ q.counts = { p.counts with replyDrop := bump p.counts.replyDrop })) ∧
    ((p.events.latches.getLsbD k.val = true ∨ p.events.enables.getLsbD k.val = false ∨ p.events.routeFrame.getLsbD k.val = false) →
      q.out = p.out ∧ q.events.sequence = p.events.sequence ∧ q.counts = p.counts) ∧
    q = { p with out := q.out, counts := { p.counts with replyDrop := q.counts.replyDrop }, events := q.events } ∧
    (p.events.enables.getLsbD k.val = true → p.events.routeBeacon.getLsbD k.val = true → p.events.beacon.mode = .pulse →
      q.events.beacon.pulseEnd = some (p.lineTime + 50)) ∧
    (p.events.enables.getLsbD k.val = true → p.events.routeStop.getLsbD k.val = true → p.events.stop.mode = .pulse →
      q.events.stop.pulseEnd = some (p.lineTime + 50)) ∧
    ∀ (s : State) (e : Nat), s.part.phase = .running →
      (s.part.events.stop.pulseEnd = some e → exec (.pulseEnd .stop) s = .next (s.withPart { s.part with
        events := { s.part.events with stop := { s.part.events.stop with
          pulseEnd := if e ≤ s.part.lineTime then none else some e } } })) ∧
      (s.part.events.beacon.pulseEnd = some e → exec (.pulseEnd .beacon) s = .next (s.withPart { s.part with
        events := { s.part.events with beacon := { s.part.events.beacon with
          pulseEnd := if e ≤ s.part.lineTime then none else some e } } }))

/-- EVENT_READ, EVENT_CLEAR (R112, R110), GUARD_READ (R103): a read of the events gives the latches, repeat flags,
enables and pins, whose activity CausesAreLatchedAndPulsesEnd gives, and changes nothing; a clear clears the latch and repeat flag of each source named, gives what is
left, and raises no ATTENTION frame; a read of the guard lines gives each line's taken level, whether it is
asserted, its changed bit and whether it is settling, and then clears every changed bit. That bits 2 to 7 of the pins'
byte and bits 4 to 7 of each line's byte are sent as 0 is the model's choice (assumption log 35): R171 speaks of unused
bytes and words only. -/
def Obligations.EventsAndGuardLinesAreRead : Prop :=
  ∀ (s : State) (e : IntakeEntry) (rest : List IntakeEntry), let p := setManagement rest s.part
    let four := fun (x : BitVec 32) => bytesOf 4 x.toNat
    (Waiting .eventRead e rest s → exec .eventRead s = .next (s.withPart (answer e .done
      (four p.events.latches ++ four p.events.repeats ++ four p.events.enables ++
        [BitVec.ofNat 8 ((if stopActive p then 1 else 0) + (if beaconActive p then 2 else 0))]) p))) ∧
    (Waiting .eventClear e rest s →
      let named := BitVec.ofNat 32 (((e.frame.arg 1 * 256 + e.frame.arg 2) * 256 + e.frame.arg 3) * 256 + e.frame.arg 4)
      let latches := p.events.latches &&& ~~~ named
      let repeats := p.events.repeats &&& ~~~ named
      exec .eventClear s = .next (s.withPart (answer e .done (four latches ++ four repeats ++ four p.events.enables)
        { p with events := { p.events with latches := latches, repeats := repeats } }))) ∧
    (Waiting .guardRead e rest s →
      ∃ lines, (∀ n, lines.read n = { s.part.guard.lines.read n with changed := false }) ∧
        exec .guardRead s = .next (s.withPart (answer e .done
          (s.part.guard.lines.toList.map fun l => BitVec.ofNat 8 ((if l.taken then 1 else 0) +
            (if l.taken = l.config.activeHigh then 2 else 0) + (if l.changed then 4 else 0) + (if l.settle.isSome then 8 else 0)))
          { p with guard := { p.guard with lines := lines } })))

/-! ## Table memory -/

/-- R154: a word with one bit disturbed is corrected at that bit and returned as it was written, and one with
two bits disturbed is uncorrectable. -/
def Obligations.SingleErrorsAreCorrected : Prop :=
  ∀ (w : Word) (i j : Fin 39),
    (let x : StoredWord := { data := w, flips := BitVec.twoPow 39 i.val }
     x.judged = .corrected i ∧ x.putRight i = w) ∧
    (i ≠ j → (StoredWord.mk w (BitVec.twoPow 39 i.val ||| BitVec.twoPow 39 j.val)).judged = .uncorrectable) ∧
    (StoredWord.mk w 0).judged = .clean ∧ (StoredWord.mk w 0).storedData = w

/-- TABLE_WRITE (R164, R153): with table memory in its canonical form, words at consecutive addresses
within it take their new data with no bit disturbed, and every other word stays; a write that would go beyond word 16383 is refused with RANGE and
writes nothing. -/
def Obligations.TableWriteWritesItsWords : Prop :=
  ∀ (s : State) (e : IntakeEntry) (rest : List IntakeEntry), Waiting .tableWrite e rest s → s.part.table.wf = true →
    let p := setManagement rest s.part
    let base := e.frame.arg 1 * 256 + e.frame.arg 2
    let count := (e.frame.payload.length - 3) / 4
    let word := fun k => BitVec.ofNat 32 (((e.frame.arg (3 + 4 * k) * 256 + e.frame.arg (4 + 4 * k)) * 256 +
      e.frame.arg (5 + 4 * k)) * 256 + e.frame.arg (6 + 4 * k))
    (16383 < base + count - 1 → exec .tableWrite s = .next (s.withPart (answer e .range [] p))) ∧
    (base + count - 1 ≤ 16383 → ∃ words,
      exec .tableWrite s = .next (s.withPart (answer e .done [] { p with table := { p.table with words := words } })) ∧
      ∀ a, wordAt words a = if base ≤ a ∧ a < base + count then { data := word (a - base), flips := 0 }
        else wordAt s.part.table.words a)

/-- TABLE_READ (R165): 1 to 7 words within table memory are read in address order with reader MANAGEMENT; a
count of 0 or above 7 or a word beyond 16383 is refused with RANGE. With no bit disturbed the reply is DONE
with the words' data, and nothing else changes; an uncorrectable word is returned as zero under TABLE. -/
def Obligations.TableReadReturnsTheWords : Prop :=
  ∀ (s : State) (e : IntakeEntry) (rest : List IntakeEntry), Waiting .tableRead e rest s →
    let p := setManagement rest s.part
    let base := e.frame.arg 1 * 256 + e.frame.arg 2
    let count := e.frame.arg 3
    let r := readEach .management ((List.range count).map (base + ·)) p
    ((count = 0 ∨ 7 < count ∨ 16383 < base + count - 1) → exec .tableRead s = .next (s.withPart (answer e .range [] p))) ∧
    (1 ≤ count → count ≤ 7 → base + count - 1 ≤ 16383 →
      exec .tableRead s = .next (s.withPart (answer e (if none ∈ r.1 then .table else .done)
        (r.1.flatMap fun w => bytesOf 4 (w.getD 0).toNat) r.2)) ∧
      (s.part.table.clean → r.1 = (List.range count).map (fun k => some (wordAt s.part.table.words (base + k)).data) ∧ r.2 = p))

/-- ERROR_READ (R158) and the record (R157): the record keeps the first error of the worst kind, and a further
uncorrectable word sets its repeat flag. A record that holds an error is given with every field and the
corrected-error count, and the clear option then sets it to kind NONE with the repeat flag clear. Of a record of
kind NONE the address, the position and the reader have no meaning: those four bytes are free (assumption log 4). -/
def Obligations.WorstErrorIsKeptAndRead : Prop :=
  (∀ (rd : Reader) (a : Nat) (i : Fin 39) (p : Part),
    (offerUncorrectable rd a p).table.capture =
      (if p.table.capture.kind = .uncorrectable then { p.table.capture with repeated := true }
       else { kind := .uncorrectable, address := a, position := none, reader := rd, repeated := false }) ∧
    (offerUncorrectable rd a p).events.latches.getLsbD 18 = true ∧
    (offerCorrected rd a i p).table.capture =
      (if p.table.capture.kind = .empty then
        { kind := .corrected, address := a, position := some i.val, reader := rd, repeated := false }
       else p.table.capture) ∧
    (p.table.capture.kind ≠ .empty → offerCorrected rd a i p = p)) ∧
  ∀ (s : State) (e : IntakeEntry) (rest : List IntakeEntry), Waiting .errorRead e rest s →
    let c := s.part.table.capture
    let cleared := if e.frame.arg 1 = 0 then c else { c with kind := .empty, repeated := false }
    let p := setManagement rest { s.part with table := { s.part.table with capture := cleared } }
    (c.kind ≠ .empty → exec .errorRead s = .next (s.withPart (answer e .done
      (c.kind.code :: bytesOf 2 c.address ++ [BitVec.ofNat 8 (c.position.getD 255), c.reader.code, flagByte c.repeated] ++
        bytesOf 2 s.part.table.corrected) p))) ∧
    (c.kind = .empty → exec .errorRead s = .next (s.withPart (answer e .done
      (0 :: (List.range 4).map (fun n => Config.freeByte (s.part.freeUsed + n)) ++ [0] ++ bytesOf 2 s.part.table.corrected)
      { p with freeUsed := s.part.freeUsed + 4 })))

/-! ## The management unit -/

/-- R162, cases 1 to 3. UNKNOWN_REQUEST, EMPTY_REQUEST, NON_REQUEST_ENTRY_DISCARDED (R135): an empty payload is answered
LENGTH with request code 0, a code that names no request UNKNOWN, and an entry of another kind is discarded
with its filter hit kept and no reply. A request whose payload has the wrong length is answered LENGTH by its own
command, and nothing but the queue and the reply changes. -/
def Obligations.EntriesAreJudgedInOrder : Prop :=
  ∀ (s : State) (e : IntakeEntry) (rest : List IntakeEntry), s.part.phase = .running →
    s.part.filter.management.entries = e :: rest → let p := setManagement rest s.part
    let reply := fun (code : Byte) (result : Byte) => appendReport
      (Frame.mk e.frame.source s.part.settings.ownAddress Kind.reply e.frame.tag [code, result]) p
    (e.frame.kind = Kind.request → e.frame.payload = [] → exec .emptyRequest s = .next (s.withPart (reply 0 8))) ∧
    (∀ c args, e.frame.kind = Kind.request → e.frame.payload = c :: args → (c = 0 ∨ 22 < c.toNat) →
      exec .unknownRequest s = .next (s.withPart (reply c 7))) ∧
    (e.frame.kind ≠ Kind.request → exec .nonRequestEntryDiscarded s = .next (s.withPart
      { p with filter := { p.filter with management := { p.filter.management with rejected := some e.hit } } })) ∧
    ∀ r, e.frame.request = some r → r.lengthSuits e.frame.payload.length = false →
      exec (requestCommand r e.frame) s = .next (s.withPart (answer e .length [] p))

/-- FILTER_WRITE, MASK_WRITE, FILTER_READ (R138): an index or code beyond its values is refused with RANGE, an
enabled filter or a mask that one selects with ENABLED; otherwise the contents are replaced, the filter staying
disabled. A read gives the contents with the compare masks and changes nothing. -/
def Obligations.FiltersAndMasksAreWrittenAndRead : Prop :=
  ∀ (s : State) (e : IntakeEntry) (rest : List IntakeEntry), let p := setManagement rest s.part
    let a := e.frame.arg
    let b := fun k => e.frame.payload.getD k 0
    (Waiting .filterWrite e rest s →
      ((32 ≤ a 1 ∨ 3 ≤ a 2 ∨ 4 ≤ a 8 ∨ 6 ≤ a 9) → exec .filterWrite s = .next (s.withPart (answer e .range [] p))) ∧
      ∀ (i : FilterIx) (d : Direction) (m : Fin 4) (act : Action),
        a 1 = i.val → Direction.ofCode (a 2) = some d → a 8 = m.val → Action.ofCode (a 9) = some act →
        ((s.part.filter.filters.read i).enabled = true → exec .filterWrite s = .next (s.withPart (answer e .enabled [] p))) ∧
        ((s.part.filter.filters.read i).enabled = false → exec .filterWrite s = .next (s.withPart (answer e .done []
          (setFilterUnit (fun u => { u with filters := u.filters.update i fun _ =>
            { enabled := false, direction := d, dest := b 3, self := b 4 ≠ 0, source := b 5, kind := b 6, selector := b 7
              mask := m, action := act, forward := b 10 ≠ 0 } }) p))))) ∧
    (Waiting .maskWrite e rest s →
      (4 ≤ a 1 → exec .maskWrite s = .next (s.withPart (answer e .range [] p))) ∧
      ∀ m : Fin 4, a 1 = m.val →
        ((∃ i, (s.part.filter.filters.read i).enabled = true ∧ (s.part.filter.filters.read i).mask = m) →
          exec .maskWrite s = .next (s.withPart (answer e .enabled [] p))) ∧
        ((∀ i, (s.part.filter.filters.read i).enabled = true → (s.part.filter.filters.read i).mask ≠ m) →
          exec .maskWrite s = .next (s.withPart (answer e .done []
            (setFilterUnit (fun u => { u with masks := u.masks.update m fun _ =>
              { dest := b 2, source := b 3, kind := b 4, selector := b 5 } }) p))))) ∧
    (Waiting .filterRead e rest s →
      (32 ≤ a 1 → exec .filterRead s = .next (s.withPart (answer e .range [] p))) ∧
      ∀ i : FilterIx, a 1 = i.val → let x := s.part.filter.filters.read i
        let m := s.part.filter.masks.read x.mask
        exec .filterRead s = .next (s.withPart (answer e .done
          [flagByte x.enabled, x.direction.code, x.dest, flagByte x.self, x.source, x.kind, x.selector,
            BitVec.ofNat 8 x.mask.val, x.action.code, flagByte x.forward, m.dest, m.source, m.kind, m.selector] p)))

/-- FILTER_ENABLE (R139): the flag takes the setting and the reply is DONE; an index above 31 or another setting
is refused with RANGE. No intake queue and no other filter changes. -/
def Obligations.FilterEnableSetsTheFlag : Prop :=
  ∀ (s : State) (e : IntakeEntry) (rest : List IntakeEntry), Waiting .filterEnable e rest s →
    let p := setManagement rest s.part
    ((32 ≤ e.frame.arg 1 ∨ 2 ≤ e.frame.arg 2) → exec .filterEnable s = .next (s.withPart (answer e .range [] p))) ∧
    ∀ (i : FilterIx) (on : Bool), e.frame.arg 1 = i.val → e.frame.arg 2 = (if on then 1 else 0) →
      exec .filterEnable s = .next (s.withPart (answer e .done []
        (setFilterUnit (fun u => { u with filters := u.filters.update i fun x => { x with enabled := on } }) p))) ∧
      ((s.part.filter.filters.read i).enabled = on →
        setFilterUnit (fun u => { u with filters := u.filters.update i fun x => { x with enabled := on } }) p = p)

/-- APPLY_CONFIG (R161): with some word of the block uncorrectable the request is refused with TABLE; otherwise
every setting, level, mode, route, guard configuration and cue timer is that of the block, clamped, and the
reply says whether any field was clamped. A pin that leaves PULSE mode has no pulse (R113). Each guard line is
re-examined (R107): one that becomes asserted loses its settle, one that becomes deasserted begins one as after a
deassertion, one that stays deasserted ends or begins one with its auto-resume flag, and one that becomes asserted or
stays so under another class or zone set latches its source and has its class's effect. Every figure's stored
setpoint meets its soft limits, and one that moves faults when its record is uncorrectable (R99). The clock, the
filters and every table word are unchanged. -/
def Obligations.ApplyConfigPutsTheBlockInPlace : Prop :=
  ∀ (s : State) (e : IntakeEntry) (rest : List IntakeEntry), Waiting .applyConfig e rest s →
    let p := setManagement rest s.part
    let r := readEach .management (List.range 64) p
    (none ∈ r.1 → exec .applyConfig s = .next (s.withPart (answer e .table [] r.2))) ∧
    (none ∉ r.1 →
      let w := fun k => (r.1.getD k none).getD 0
      ∃ q : Part, exec .applyConfig s = .next (s.withPart (answer e (if blockClamped w then .clamped else .done) [] q)) ∧
        q.settings = settingsOf w ∧ q.out.levels = levelsOf w ∧ q.out.mode = ReleaseMode.ofCode (releaseField w).value ∧
        q.out.mark = (if q.out.mode = s.part.out.mode then s.part.out.mark else 0) ∧ q.events.enables = w 24 ∧
        q.events.routeFrame = w 25 ∧ q.events.routeStop = w 26 ∧ q.events.routeBeacon = w 27 ∧
        (∀ n, (q.guard.lines.read n).config = guardConfigOf w n ∧ (q.guard.lines.read n).taken = (s.part.guard.lines.read n).taken ∧
          (q.guard.lines.read n).changed = (s.part.guard.lines.read n).changed) ∧
        q.cal = { s.part.cal with timers := Vector.ofFn (timerOf w) } ∧ q.filter = p.filter ∧
        sameGround { s.part with settings := settingsOf w } q ∧
        q.events.stop.mode = PinMode.ofCode (stopModeField w).value ∧
        q.events.beacon.mode = PinMode.ofCode (beaconModeField w).value ∧
        (s.part.events.stop.mode = .pulse → q.events.stop.mode = .level → q.events.stop.pulseEnd = none) ∧
        (s.part.events.beacon.mode = .pulse → q.events.beacon.mode = .level → q.events.beacon.pulseEnd = none) ∧
        (∀ n, let old := s.part.guard.lines.read n
          let new := guardConfigOf w n
          let is : Bool := old.taken = new.activeHigh
          let held : Bool := ∃ k : FigIx, (s.part.figures.read k).hold.getLsbD n.val = true
          let begun := some (s.part.lineTime + new.settleTime)
          let effect : Prop := is = true ∧ (old.asserted = false ∨ old.config.cls ≠ new.cls ∨ old.config.zones ≠ new.zones)
          (q.guard.lines.read n).settle = (match old.asserted, is with
            | false, true => none
            | true, false => if new.autoResume = true ∧ (new.cls ≠ .note ∨ held = true) then begun else old.settle
            | true, true => old.settle
            | false, false => if new.autoResume = false then none else if old.settle.isSome then old.settle else begun) ∧
          (effect → q.events.latches.getLsbD n.val = true) ∧
          (effect → new.cls = .allStop → quiet q ∧ holdsEvery n q) ∧
          (effect → new.cls = .zoneFreeze → s.part.table.clean → ∀ k,
            let fig := figureRecord fun i => (wordAt s.part.table.words (256 + 8 * k.val + i)).data
            fig.node ≠ 0 → new.zones.getLsbD fig.zone = true → (q.figures.read k).hold.getLsbD n.val = true)) ∧
        ∀ k, let g := s.part.figures.read k
          (∀ rec, (readFigure k [0, 2] s.part).1 = some rec →
            (q.figures.read k).setpoint = max rec.lower (min rec.upper g.setpoint)) ∧
          ((readFigure k [0, 2] s.part).1 = none → (q.figures.read k).setpoint = g.setpoint ∧
            (q.figures.read k).state ≠ .driven ∧ (q.figures.read k).state ≠ .homing))

/-- STATUS_READ (R166): a page above 4, a part beyond its page's, or a clear on another page than 3 is refused
with RANGE; pages 0, 1, 2 and 4 give the clock, the slots, the figures, the bells, the queues and the verify result
as they stand and change nothing, the nine bytes of an IDLE slot's fields being free (assumption log 4); page 3 with the clear option gives the counts of the part
named and then sets every count of the page to 0. -/
def Obligations.StatusReadReportsAndClears : Prop :=
  ∀ (s : State) (e : IntakeEntry) (rest : List IntakeEntry), Waiting .statusRead e rest s →
    let p := setManagement rest s.part
    let page := e.frame.arg 1
    let part := e.frame.arg 2
    ((4 < page ∨ (page = 0 ∧ 3 < part) ∨ (page = 1 ∧ 21 < part) ∨ (page = 2 ∧ 0 < part) ∨ (page = 3 ∧ 2 < part) ∨
        (page = 4 ∧ 0 < part) ∨ (page ≠ 3 ∧ e.frame.arg 3 ≠ 0)) →
      exec .statusRead s = .next (s.withPart (answer e .range [] p))) ∧
    (∀ data : List Byte, e.frame.arg 3 = 0 →
      ((page = 0 ∧ part = 0 ∧ data = clockPage p.cal) ∨
        (∃ i : SlotIx, page = 0 ∧ part = i.val + 1 ∧ (p.slots.read i).busy = true ∧ data = (slotPage i p).1) ∨
        (∃ k : FigIx, page = 1 ∧ part = k.val ∧ data = figurePage (p.figures.read k)) ∨
        (page = 1 ∧ 16 ≤ part ∧ part ≤ 21 ∧ data = bellPage part p) ∨
        (page = 2 ∧ part = 0 ∧ data = queuePage p) ∨ (page = 4 ∧ part = 0 ∧ data = verifyBytes p.verify.result)) →
      exec .statusRead s = .next (s.withPart (answer e .done data p))) ∧
    (∀ i : SlotIx, page = 0 → part = i.val + 1 → e.frame.arg 3 = 0 → (p.slots.read i).state = .idle →
      exec .statusRead s = .next (s.withPart (answer e .done
        (0 :: (List.range 9).map (fun n => Config.freeByte (s.part.freeUsed + n)) ++ waitingBytes (p.slots.read i) p.lineTime)
        { p with freeUsed := s.part.freeUsed + 9 }))) ∧
    ∀ data : List Nat,
      page = 3 → ((part = 0 ∧ data = lineCounts p) ∨ (part = 1 ∧ data = partCounts p) ∨ (part = 2 ∧ data = noteCounts p)) →
      ∃ q : Part, exec .statusRead s = .next (s.withPart (answer e .done (data.flatMap (bytesOf 2)) q)) ∧
        (e.frame.arg 3 = 0 → q = p) ∧
        (e.frame.arg 3 ≠ 0 → (∀ n ∈ lineCounts q ++ partCounts q ++ noteCounts q, n = 0) ∧ q.out = p.out ∧
          q.slots = p.slots ∧ q.events = p.events ∧ q.table.words = p.table.words ∧
          q.filter.management.entries = p.filter.management.entries)

/-- VERIFY_SHOW and VERIFY_SWEEP (R167 to R169): a show above 31 is refused with RANGE and a verify taken while one
is in flight with BUSY; otherwise the result is IN PROGRESS with every count 0 and no first fault, and the sweep
begins; that its valid flag is none until the first word is read is the model's choice (assumption log 41). In the sweep a
millisecond makes 1,024 reads or ends it; at its end the result is DONE and source 25 is latched. With no verify in flight
nothing happens. No word, no figure, no guard line, no slot, no strike and no queue but OQ-REPORT is changed by a sweep.
Each read takes the word at its place with reader VERIFY and counts it, counts it again when it is uncorrectable, counts
the faults it shows, and keeps the kind and the word of the first; the places follow one another through the show entry,
the barrel's header, row map and rows, and the items' figure records and paths. Where R168 is open (the word and the
moment at which an invalid pointer is found, what is swept of a barrel or a path in part unreadable or too long, the order
of two faults of one read) the statement gives the model's choice (assumption log 13). -/
def Obligations.VerifySweepBeginsReadsAndFinishes : Prop :=
  (∀ s : State, s.part.phase = .running →
    (∀ e rest, Waiting .verifyShow e rest s → let p := setManagement rest s.part
      (32 ≤ e.frame.arg 1 → exec .verifyShow s = .next (s.withPart (answer e .range [] p))) ∧
      ∀ k : ShowIx, e.frame.arg 1 = k.val →
        (s.part.verify.result.state = .inProgress → exec .verifyShow s = .next (s.withPart (answer e .busy [] p))) ∧
        (s.part.verify.result.state ≠ .inProgress →
          let v : VerifySweep := {
            position := .entry 0, entry := [], header := [], mapGood := true, limits := none, count := 0, previous := none }
          let begun : VerifyResult := {
            state := .inProgress, showIx := k, valid := none, wordsRead := 0, uncorrectable := 0, faults := 0, first := none }
          exec .verifyShow s = .next (s.withPart (answer e .done [] { p with verify := { result := begun, sweep := v } })))) ∧
    (s.part.verify.result.state ≠ .inProgress → exec .verifySweep s = .next s) ∧
    (s.part.verify.result.state = .inProgress → ∃ t, exec .verifySweep s = .next t ∧ t.pending = s.pending ∧
      (t.part.verify.result.state = .inProgress ∧ t.part.verify.result.wordsRead = s.part.verify.result.wordsRead + 1024 ∨
        t.part.verify.result.state = .done ∧ s.part.verify.result.wordsRead < t.part.verify.result.wordsRead ∧
          t.part.verify.result.wordsRead ≤ s.part.verify.result.wordsRead + 1024 ∧
          t.part.events.latches.getLsbD 25 = true) ∧
      (∃ n, n ≤ 1024 ∧ t.part = sweepRead^[n] s.part ∧ (n = 1024 ∨ t.part.verify.result.state = .done) ∧
        ∀ m, m < n → (sweepRead^[m] s.part).verify.result.state = .inProgress) ∧
      t.part.verify.result.showIx = s.part.verify.result.showIx ∧
      sameButFigures s.part { t.part with verify := s.part.verify } ∧ t.part.figures = s.part.figures ∧
      t.part.guard = s.part.guard)) ∧
  (∀ (x : VerifySweep) (i : Nat), x.fromItem 8 i =
    if x.items ≤ i then .finished
    else if (x.itemFigure i).isSome then .figure i 0
    else if (x.pathPointer i).any (fun b => 1152 ≤ b ∧ b ≤ 16383) then .pathHeader i
    else x.fromItem 8 (i + 1)) ∧
  ∀ p : Part, p.verify.result.state = .inProgress →
    let x := p.verify.sweep
    let v := p.verify.result
    let base := 640 + 16 * v.showIx.val
    let valid : Nat → Bool := fun b => 1152 ≤ b ∧ b ≤ 16383
    let found := fun (shown : Bool) (kind : VerifyFault) (a : Nat) => if shown then [(kind, a)] else []
    let onTo := fun (y : VerifySweep) (i : Nat) => { y with position := y.fromItem 8 i, limits := none }
    let reads := fun (a : Nat) (faults : Option Word → List (VerifyFault × Nat)) (next : Option Word → VerifySweep) =>
      let r := readWord .verify a p
      let counted : VerifyResult := { v with
        valid := if x.position = .entry 0 then r.1.map fun w => byteAt w 0 ≠ 0 else v.valid
        wordsRead := v.wordsRead + 1
        uncorrectable := v.uncorrectable + if r.1.isNone then 1 else 0
        faults := v.faults + (faults r.1).length
        first := if v.first.isSome then v.first else (faults r.1).head? }
      sweepRead p = if (next r.1).position = .finished
        then latchEvent 25 { r.2 with verify := { result := { counted with state := .done }, sweep := next r.1 } }
        else { r.2 with verify := { result := counted, sweep := next r.1 } }
    (∀ k, x.position = .entry k → k < 15 →
      reads (base + k) (fun _ => []) fun w => { x with entry := x.entry ++ [w], position := .entry (k + 1) }) ∧
    (x.position = .entry 15 → let y := fun w => { x with entry := x.entry ++ [w] }
      reads (base + 15)
        (fun w => found ((y w).barrelPointer.any fun b => b ≠ 0 ∧ ¬ (1152 ≤ b ∧ b ≤ 16382)) .invalidPointer (base + 2) ++
          (List.range (y w).items).flatMap fun i =>
            found (((y w).pathPointer i).any fun b => !valid b) .invalidPointer (base + (21 + 5 * i) / 4))
        fun w => if (y w).barrelPointer.any fun b => 1152 ≤ b ∧ b ≤ 16382 then { y w with position := .header 0 } else onTo (y w) 0) ∧
    (∀ b, x.barrelPointer = some b → let h := x.barrel
      let least := (h.steps * h.size + 3) / 4
      let rowMap := (h.rows + 3) / 4
      (x.position = .header 0 →
        reads b (fun _ => []) fun w => { x with header := x.header ++ [w], position := .header 1 }) ∧
      (x.position = .header 1 → x.header = [none] →
        reads (b + 1) (fun _ => []) fun w => onTo { x with header := x.header ++ [w] } 0) ∧
      (∀ u, x.position = .header 1 → x.header = [some u] →
        let y := fun w => { x with header := x.header ++ [w] }
        let g := fun w => (y w).barrel
        let beyond := fun w : Option Word => decide (16383 < b + 1 + ((g w).rows + 3) / 4 + (g w).rows * (g w).span)
        reads (b + 1)
          (fun w => found (beyond w) .invalidPointer (base + 2) ++
            found (w.any fun z => halfAt z 1 < ((g w).steps * (g w).size + 3) / 4) .spanTooSmall (b + 1))
          fun w => if beyond w then onTo (y w) 0 else { y w with position := .rowMap 0 }) ∧
      (∀ k, x.position = .rowMap k → let y := fun w : Option Word => { x with mapGood := x.mapGood && w.isSome }
        reads (b + 2 + k)
          (fun w => (List.range 4).flatMap fun n =>
            found (4 * k + n < h.rows && w.any fun z => 47 < byteAt z n) .bellAbove47 (b + 2 + k))
          fun w => if k + 1 < rowMap then { y w with position := .rowMap (k + 1) }
            else if (y w).mapGood = true ∧ (x.header.getD 1 none).isSome = true then { y w with position := .row 0 0 }
            else onTo (y w) 0) ∧
      (∀ n k, x.position = .row n k →
        reads (b + 2 + rowMap + n * h.span + k) (fun _ => []) fun _ =>
          if k + 1 < least then { x with position := .row n (k + 1) }
          else if n + 1 < h.rows then { x with position := .row (n + 1) 0 } else onTo x 0)) ∧
    (∀ (i k : Nat) (f : FigIx), x.position = .figure i k → x.itemFigure i = some f →
      let y := fun w : Option Word => if k = 2
        then { x with limits := w.map fun z => (signedHalf (halfAt z 0), max (signedHalf (halfAt z 0)) (signedHalf (halfAt z 1))) }
        else x
      reads (256 + 8 * f.val + k) (fun _ => []) fun w =>
        if k < 7 then { y w with position := .figure i (k + 1) }
        else if (x.pathPointer i).any valid then { y w with position := .pathHeader i } else onTo (y w) (i + 1)) ∧
    ∀ (i b : Nat), x.pathPointer i = some b →
      (x.position = .pathHeader i →
        let beyond := fun w : Word => decide (16383 < b + clamp 2 32 (byteAt w 0))
        reads b
          (fun w => found (w.any beyond) .invalidPointer (base + (21 + 5 * i) / 4) ++
            found (w.any fun z => byteAt z 0 < 2 || 32 < byteAt z 0) .keyframeCount b)
          fun w => match w with
            | none => onTo x (i + 1)
            | some z => if beyond z then onTo x (i + 1)
              else { x with position := .keyframe i 0, count := clamp 2 32 (byteAt z 0), previous := none }) ∧
      ∀ j, x.position = .keyframe i j →
        let y := fun w : Option Word => { x with previous := w.map fun z => halfAt z 0 }
        reads (b + 1 + j)
          (fun w => found (w.any fun z => x.previous.any fun t => halfAt z 0 ≤ t) .keyframeTime (b + 1 + j) ++
            found (w.any fun z => x.limits.any fun l => signedHalf (halfAt z 1) < l.1 || l.2 < signedHalf (halfAt z 1))
              .keyframePosition (b + 1 + j))
          fun w => if j + 1 < x.count then { y w with position := .keyframe i (j + 1) } else onTo (y w) (i + 1)

/-! ## What every step keeps -/

/-- Every condition below holds right after a power-on reset. -/
def Obligations.ResetMeetsEveryInvariant : Prop :=
  let p := State.reset.part
  p.table.wf = true ∧ queuesBounded p ∧ markBounded p.out ∧ strikesOrdered p ∧ strikesOwned p ∧ ownersAgree p ∧ stopsHold p ∧
    clockSound p.cal ∧ portSums p.up.counts ∧ portSums p.down.counts ∧ setpointsInRange p

/-- R151, R153: every step keeps table memory in its canonical form. -/
def Obligations.StepsKeepTheTableForm : Prop :=
  ∀ s t : State, s.part.table.wf = true → step s = .next t → t.part.table.wf = true

/-- R134, R140, R64, R142, R143: every step keeps every queue within its capacity, and the release mark within
OQ-REPORT and at 0 in FREE mode. -/
def Obligations.StepsKeepTheQueuesBounded : Prop :=
  ∀ s t : State, queuesBounded s.part → markBounded s.part.out → step s = .next t →
    queuesBounded t.part ∧ markBounded t.part.out

/-- R42, R64: every step keeps the strike queue in fire-instant order, and keeps every entry of it with the slot that
owns its bell. -/
def Obligations.StepsKeepTheStrikesInOrder : Prop :=
  ∀ s t : State, step s = .next t → (strikesOrdered s.part → strikesOrdered t.part) ∧ (strikesOwned s.part → strikesOwned t.part)

/-- R39, R41: after every step each bell and each figure has the owner that the slots give it. -/
def Obligations.StepsKeepTheOwnersRight : Prop :=
  ∀ s t : State, ownersAgree s.part → step s = .next t → ownersAgree t.part

/-- R105: while any ALL-STOP line is asserted, every step leaves every slot IDLE, the strike queue, OQ-STRIKE and
OQ-MOTION empty and every figure held. The first sample after a reset, which sets levels without taking a
change (R102), is left out. -/
def Obligations.AllStopLastsThroughEveryStep : Prop :=
  ∀ s t : State, stopsHold s.part → s.part.guard.awaitingSample = false → step s = .next t → stopsHold t.part

/-- R1, R10: every step keeps the clock at a possible time, and no step but a power-on reset sets the last-fired
stamp back. -/
def Obligations.StampNeverGoesBack : Prop :=
  ∀ s t : State, clockSound s.part.cal → step s = .next t →
    clockSound t.part.cal ∧ (s.pending.head? ≠ some .powerOnReset → stampUpTo s.part.cal.stamp t.part.cal.stamp)

/-- R121: while its received count is below 65535, every step keeps a port's received frames the sum of those
forwarded, consumed and dropped. -/
def Obligations.ReceivedFramesAreAccountedFor : Prop :=
  ∀ s t : State, portSums s.part.up.counts → portSums s.part.down.counts → s.part.up.counts.received < 65535 →
    s.part.down.counts.received < 65535 → step s = .next t → portSums t.part.up.counts ∧ portSums t.part.down.counts
end

