-- ==== Sys2Proof/Laws/State.lean ====
section
/-! SUPPORT. What each update of the part leaves as it was and what it changes, field by field, and the
laws of banks. -/

namespace Sys2Proof

/-! ## Banks -/

@[simp] theorem Bank.read_update_self {α : Type} {n : Nat} (b : Bank α n) (i : Fin n) (f : α → α) :
    (b.update i f).read i = f (b.read i) := by
  simp [Bank.read, Bank.update, Vector.get_eq_getElem]

theorem Bank.read_update_ne {α : Type} {n : Nat} (b : Bank α n) (i j : Fin n) (f : α → α) (h : j ≠ i) :
    (b.update i f).read j = b.read j := by
  have : i.val ≠ j.val := fun e => h (Fin.ext e.symm)
  simp [Bank.read, Bank.update, Vector.get_eq_getElem, this]

theorem Bank.read_update {α : Type} {n : Nat} (b : Bank α n) (i j : Fin n) (f : α → α) :
    (b.update i f).read j = if j = i then f (b.read i) else b.read j := by
  split
  · next h => rw [h]; exact b.read_update_self i f
  · next h => exact b.read_update_ne i j f h

@[simp] theorem Bank.read_each {α β : Type} {n : Nat} (b : Bank α n) (f : α → β) (i : Fin n) :
    (b.each f).read i = f (b.read i) := by
  simp [Bank.read, Bank.each, Vector.get_eq_getElem]

@[simp] theorem Bank.read_const {α : Type} (n : Nat) (a : α) (i : Fin n) : (Bank.const n a).read i = a := by
  simp [Bank.read, Bank.const, Vector.get_eq_getElem]

@[simp] theorem Bank.read_ofFn {α : Type} {n : Nat} (f : Fin n → α) (i : Fin n) : Bank.read (Vector.ofFn f) i = f i := by
  simp [Bank.read, Vector.get_eq_getElem]

theorem Bank.ext_read {α : Type} {n : Nat} (a b : Bank α n) (h : ∀ i, a.read i = b.read i) : a = b := by
  apply Vector.ext
  intro i hi
  simpa [Bank.read, Vector.get_eq_getElem] using h ⟨i, hi⟩

theorem Bank.mem_toList {α : Type} {n : Nat} (b : Bank α n) (a : α) : a ∈ b.toList ↔ ∃ i, b.read i = a := by
  constructor
  · intro h
    obtain ⟨i, hi, e⟩ := List.getElem_of_mem h
    exact ⟨⟨i, by simpa using hi⟩, by simpa [Bank.read, Vector.get_eq_getElem] using e⟩
  · rintro ⟨i, rfl⟩
    simp [Bank.read, Vector.get_eq_getElem]

namespace Machine

/-! ## Updates of one record or unit -/

@[simp] theorem setSlot_lineTime (i : SlotIx) (f : Slot → Slot) (p : Part) : (setSlot i f p).lineTime = p.lineTime := rfl
@[simp] theorem setSlot_phase (i : SlotIx) (f : Slot → Slot) (p : Part) : (setSlot i f p).phase = p.phase := rfl
@[simp] theorem setSlot_resetMs (i : SlotIx) (f : Slot → Slot) (p : Part) : (setSlot i f p).resetMs = p.resetMs := rfl
@[simp] theorem setSlot_resetHold (i : SlotIx) (f : Slot → Slot) (p : Part) : (setSlot i f p).resetHold = p.resetHold := rfl
@[simp] theorem setSlot_up (i : SlotIx) (f : Slot → Slot) (p : Part) : (setSlot i f p).up = p.up := rfl
@[simp] theorem setSlot_down (i : SlotIx) (f : Slot → Slot) (p : Part) : (setSlot i f p).down = p.down := rfl
@[simp] theorem setSlot_filter (i : SlotIx) (f : Slot → Slot) (p : Part) : (setSlot i f p).filter = p.filter := rfl
@[simp] theorem setSlot_out (i : SlotIx) (f : Slot → Slot) (p : Part) : (setSlot i f p).out = p.out := rfl
@[simp] theorem setSlot_table (i : SlotIx) (f : Slot → Slot) (p : Part) : (setSlot i f p).table = p.table := rfl
@[simp] theorem setSlot_cal (i : SlotIx) (f : Slot → Slot) (p : Part) : (setSlot i f p).cal = p.cal := rfl
@[simp] theorem setSlot_settings (i : SlotIx) (f : Slot → Slot) (p : Part) : (setSlot i f p).settings = p.settings := rfl
@[simp] theorem setSlot_slots (i : SlotIx) (f : Slot → Slot) (p : Part) :
    (setSlot i f p).slots = p.slots.update i f := rfl
@[simp] theorem setSlot_contexts (i : SlotIx) (f : Slot → Slot) (p : Part) : (setSlot i f p).contexts = p.contexts := rfl
@[simp] theorem setSlot_bellOwner (i : SlotIx) (f : Slot → Slot) (p : Part) : (setSlot i f p).bellOwner = p.bellOwner := rfl
@[simp] theorem setSlot_figOwner (i : SlotIx) (f : Slot → Slot) (p : Part) : (setSlot i f p).figOwner = p.figOwner := rfl
@[simp] theorem setSlot_strikes (i : SlotIx) (f : Slot → Slot) (p : Part) : (setSlot i f p).strikes = p.strikes := rfl
@[simp] theorem setSlot_figures (i : SlotIx) (f : Slot → Slot) (p : Part) : (setSlot i f p).figures = p.figures := rfl
@[simp] theorem setSlot_guard (i : SlotIx) (f : Slot → Slot) (p : Part) : (setSlot i f p).guard = p.guard := rfl
@[simp] theorem setSlot_events (i : SlotIx) (f : Slot → Slot) (p : Part) : (setSlot i f p).events = p.events := rfl
@[simp] theorem setSlot_verify (i : SlotIx) (f : Slot → Slot) (p : Part) : (setSlot i f p).verify = p.verify := rfl
@[simp] theorem setSlot_counts (i : SlotIx) (f : Slot → Slot) (p : Part) : (setSlot i f p).counts = p.counts := rfl
@[simp] theorem setSlot_freeUsed (i : SlotIx) (f : Slot → Slot) (p : Part) : (setSlot i f p).freeUsed = p.freeUsed := rfl

@[simp] theorem setContext_lineTime (i : SlotIx) (f : BarrelContext → BarrelContext) (p : Part) : (setContext i f p).lineTime = p.lineTime := rfl
@[simp] theorem setContext_phase (i : SlotIx) (f : BarrelContext → BarrelContext) (p : Part) : (setContext i f p).phase = p.phase := rfl
@[simp] theorem setContext_resetMs (i : SlotIx) (f : BarrelContext → BarrelContext) (p : Part) : (setContext i f p).resetMs = p.resetMs := rfl
@[simp] theorem setContext_resetHold (i : SlotIx) (f : BarrelContext → BarrelContext) (p : Part) : (setContext i f p).resetHold = p.resetHold := rfl
@[simp] theorem setContext_up (i : SlotIx) (f : BarrelContext → BarrelContext) (p : Part) : (setContext i f p).up = p.up := rfl
@[simp] theorem setContext_down (i : SlotIx) (f : BarrelContext → BarrelContext) (p : Part) : (setContext i f p).down = p.down := rfl
@[simp] theorem setContext_filter (i : SlotIx) (f : BarrelContext → BarrelContext) (p : Part) : (setContext i f p).filter = p.filter := rfl
@[simp] theorem setContext_out (i : SlotIx) (f : BarrelContext → BarrelContext) (p : Part) : (setContext i f p).out = p.out := rfl
@[simp] theorem setContext_table (i : SlotIx) (f : BarrelContext → BarrelContext) (p : Part) : (setContext i f p).table = p.table := rfl
@[simp] theorem setContext_cal (i : SlotIx) (f : BarrelContext → BarrelContext) (p : Part) : (setContext i f p).cal = p.cal := rfl
@[simp] theorem setContext_settings (i : SlotIx) (f : BarrelContext → BarrelContext) (p : Part) : (setContext i f p).settings = p.settings := rfl
@[simp] theorem setContext_slots (i : SlotIx) (f : BarrelContext → BarrelContext) (p : Part) : (setContext i f p).slots = p.slots := rfl
@[simp] theorem setContext_contexts (i : SlotIx) (f : BarrelContext → BarrelContext) (p : Part) :
    (setContext i f p).contexts = p.contexts.update i f := rfl
@[simp] theorem setContext_bellOwner (i : SlotIx) (f : BarrelContext → BarrelContext) (p : Part) : (setContext i f p).bellOwner = p.bellOwner := rfl
@[simp] theorem setContext_figOwner (i : SlotIx) (f : BarrelContext → BarrelContext) (p : Part) : (setContext i f p).figOwner = p.figOwner := rfl
@[simp] theorem setContext_strikes (i : SlotIx) (f : BarrelContext → BarrelContext) (p : Part) : (setContext i f p).strikes = p.strikes := rfl
@[simp] theorem setContext_figures (i : SlotIx) (f : BarrelContext → BarrelContext) (p : Part) : (setContext i f p).figures = p.figures := rfl
@[simp] theorem setContext_guard (i : SlotIx) (f : BarrelContext → BarrelContext) (p : Part) : (setContext i f p).guard = p.guard := rfl
@[simp] theorem setContext_events (i : SlotIx) (f : BarrelContext → BarrelContext) (p : Part) : (setContext i f p).events = p.events := rfl
@[simp] theorem setContext_verify (i : SlotIx) (f : BarrelContext → BarrelContext) (p : Part) : (setContext i f p).verify = p.verify := rfl
@[simp] theorem setContext_counts (i : SlotIx) (f : BarrelContext → BarrelContext) (p : Part) : (setContext i f p).counts = p.counts := rfl
@[simp] theorem setContext_freeUsed (i : SlotIx) (f : BarrelContext → BarrelContext) (p : Part) : (setContext i f p).freeUsed = p.freeUsed := rfl

@[simp] theorem setFigure_lineTime (k : FigIx) (f : LiveFigure → LiveFigure) (p : Part) : (setFigure k f p).lineTime = p.lineTime := rfl
@[simp] theorem setFigure_phase (k : FigIx) (f : LiveFigure → LiveFigure) (p : Part) : (setFigure k f p).phase = p.phase := rfl
@[simp] theorem setFigure_resetMs (k : FigIx) (f : LiveFigure → LiveFigure) (p : Part) : (setFigure k f p).resetMs = p.resetMs := rfl
@[simp] theorem setFigure_resetHold (k : FigIx) (f : LiveFigure → LiveFigure) (p : Part) : (setFigure k f p).resetHold = p.resetHold := rfl
@[simp] theorem setFigure_up (k : FigIx) (f : LiveFigure → LiveFigure) (p : Part) : (setFigure k f p).up = p.up := rfl
@[simp] theorem setFigure_down (k : FigIx) (f : LiveFigure → LiveFigure) (p : Part) : (setFigure k f p).down = p.down := rfl
@[simp] theorem setFigure_filter (k : FigIx) (f : LiveFigure → LiveFigure) (p : Part) : (setFigure k f p).filter = p.filter := rfl
@[simp] theorem setFigure_out (k : FigIx) (f : LiveFigure → LiveFigure) (p : Part) : (setFigure k f p).out = p.out := rfl
@[simp] theorem setFigure_table (k : FigIx) (f : LiveFigure → LiveFigure) (p : Part) : (setFigure k f p).table = p.table := rfl
@[simp] theorem setFigure_cal (k : FigIx) (f : LiveFigure → LiveFigure) (p : Part) : (setFigure k f p).cal = p.cal := rfl
@[simp] theorem setFigure_settings (k : FigIx) (f : LiveFigure → LiveFigure) (p : Part) : (setFigure k f p).settings = p.settings := rfl
@[simp] theorem setFigure_slots (k : FigIx) (f : LiveFigure → LiveFigure) (p : Part) : (setFigure k f p).slots = p.slots := rfl
@[simp] theorem setFigure_contexts (k : FigIx) (f : LiveFigure → LiveFigure) (p : Part) : (setFigure k f p).contexts = p.contexts := rfl
@[simp] theorem setFigure_bellOwner (k : FigIx) (f : LiveFigure → LiveFigure) (p : Part) : (setFigure k f p).bellOwner = p.bellOwner := rfl
@[simp] theorem setFigure_figOwner (k : FigIx) (f : LiveFigure → LiveFigure) (p : Part) : (setFigure k f p).figOwner = p.figOwner := rfl
@[simp] theorem setFigure_strikes (k : FigIx) (f : LiveFigure → LiveFigure) (p : Part) : (setFigure k f p).strikes = p.strikes := rfl
@[simp] theorem setFigure_figures (k : FigIx) (f : LiveFigure → LiveFigure) (p : Part) :
    (setFigure k f p).figures = p.figures.update k f := rfl
@[simp] theorem setFigure_guard (k : FigIx) (f : LiveFigure → LiveFigure) (p : Part) : (setFigure k f p).guard = p.guard := rfl
@[simp] theorem setFigure_events (k : FigIx) (f : LiveFigure → LiveFigure) (p : Part) : (setFigure k f p).events = p.events := rfl
@[simp] theorem setFigure_verify (k : FigIx) (f : LiveFigure → LiveFigure) (p : Part) : (setFigure k f p).verify = p.verify := rfl
@[simp] theorem setFigure_counts (k : FigIx) (f : LiveFigure → LiveFigure) (p : Part) : (setFigure k f p).counts = p.counts := rfl
@[simp] theorem setFigure_freeUsed (k : FigIx) (f : LiveFigure → LiveFigure) (p : Part) : (setFigure k f p).freeUsed = p.freeUsed := rfl

@[simp] theorem setBell_lineTime (b : BellIx) (f : BellState → BellState) (p : Part) : (setBell b f p).lineTime = p.lineTime := rfl
@[simp] theorem setBell_phase (b : BellIx) (f : BellState → BellState) (p : Part) : (setBell b f p).phase = p.phase := rfl
@[simp] theorem setBell_resetMs (b : BellIx) (f : BellState → BellState) (p : Part) : (setBell b f p).resetMs = p.resetMs := rfl
@[simp] theorem setBell_resetHold (b : BellIx) (f : BellState → BellState) (p : Part) : (setBell b f p).resetHold = p.resetHold := rfl
@[simp] theorem setBell_up (b : BellIx) (f : BellState → BellState) (p : Part) : (setBell b f p).up = p.up := rfl
@[simp] theorem setBell_down (b : BellIx) (f : BellState → BellState) (p : Part) : (setBell b f p).down = p.down := rfl
@[simp] theorem setBell_filter (b : BellIx) (f : BellState → BellState) (p : Part) : (setBell b f p).filter = p.filter := rfl
@[simp] theorem setBell_out (b : BellIx) (f : BellState → BellState) (p : Part) : (setBell b f p).out = p.out := rfl
@[simp] theorem setBell_table (b : BellIx) (f : BellState → BellState) (p : Part) : (setBell b f p).table = p.table := rfl
@[simp] theorem setBell_cal (b : BellIx) (f : BellState → BellState) (p : Part) : (setBell b f p).cal = p.cal := rfl
@[simp] theorem setBell_settings (b : BellIx) (f : BellState → BellState) (p : Part) : (setBell b f p).settings = p.settings := rfl
@[simp] theorem setBell_slots (b : BellIx) (f : BellState → BellState) (p : Part) : (setBell b f p).slots = p.slots := rfl
@[simp] theorem setBell_contexts (b : BellIx) (f : BellState → BellState) (p : Part) : (setBell b f p).contexts = p.contexts := rfl
@[simp] theorem setBell_bellOwner (b : BellIx) (f : BellState → BellState) (p : Part) : (setBell b f p).bellOwner = p.bellOwner := rfl
@[simp] theorem setBell_figOwner (b : BellIx) (f : BellState → BellState) (p : Part) : (setBell b f p).figOwner = p.figOwner := rfl
@[simp] theorem setBell_strikes (b : BellIx) (f : BellState → BellState) (p : Part) :
    (setBell b f p).strikes = { p.strikes with bells := p.strikes.bells.update b f } := rfl
@[simp] theorem setBell_figures (b : BellIx) (f : BellState → BellState) (p : Part) : (setBell b f p).figures = p.figures := rfl
@[simp] theorem setBell_guard (b : BellIx) (f : BellState → BellState) (p : Part) : (setBell b f p).guard = p.guard := rfl
@[simp] theorem setBell_events (b : BellIx) (f : BellState → BellState) (p : Part) : (setBell b f p).events = p.events := rfl
@[simp] theorem setBell_verify (b : BellIx) (f : BellState → BellState) (p : Part) : (setBell b f p).verify = p.verify := rfl
@[simp] theorem setBell_counts (b : BellIx) (f : BellState → BellState) (p : Part) : (setBell b f p).counts = p.counts := rfl
@[simp] theorem setBell_freeUsed (b : BellIx) (f : BellState → BellState) (p : Part) : (setBell b f p).freeUsed = p.freeUsed := rfl

@[simp] theorem setQueue_lineTime (q : List Strike) (p : Part) : (setQueue q p).lineTime = p.lineTime := rfl
@[simp] theorem setQueue_phase (q : List Strike) (p : Part) : (setQueue q p).phase = p.phase := rfl
@[simp] theorem setQueue_resetMs (q : List Strike) (p : Part) : (setQueue q p).resetMs = p.resetMs := rfl
@[simp] theorem setQueue_resetHold (q : List Strike) (p : Part) : (setQueue q p).resetHold = p.resetHold := rfl
@[simp] theorem setQueue_up (q : List Strike) (p : Part) : (setQueue q p).up = p.up := rfl
@[simp] theorem setQueue_down (q : List Strike) (p : Part) : (setQueue q p).down = p.down := rfl
@[simp] theorem setQueue_filter (q : List Strike) (p : Part) : (setQueue q p).filter = p.filter := rfl
@[simp] theorem setQueue_out (q : List Strike) (p : Part) : (setQueue q p).out = p.out := rfl
@[simp] theorem setQueue_table (q : List Strike) (p : Part) : (setQueue q p).table = p.table := rfl
@[simp] theorem setQueue_cal (q : List Strike) (p : Part) : (setQueue q p).cal = p.cal := rfl
@[simp] theorem setQueue_settings (q : List Strike) (p : Part) : (setQueue q p).settings = p.settings := rfl
@[simp] theorem setQueue_slots (q : List Strike) (p : Part) : (setQueue q p).slots = p.slots := rfl
@[simp] theorem setQueue_contexts (q : List Strike) (p : Part) : (setQueue q p).contexts = p.contexts := rfl
@[simp] theorem setQueue_bellOwner (q : List Strike) (p : Part) : (setQueue q p).bellOwner = p.bellOwner := rfl
@[simp] theorem setQueue_figOwner (q : List Strike) (p : Part) : (setQueue q p).figOwner = p.figOwner := rfl
@[simp] theorem setQueue_strikes (q : List Strike) (p : Part) :
    (setQueue q p).strikes = { p.strikes with queue := q } := rfl
@[simp] theorem setQueue_figures (q : List Strike) (p : Part) : (setQueue q p).figures = p.figures := rfl
@[simp] theorem setQueue_guard (q : List Strike) (p : Part) : (setQueue q p).guard = p.guard := rfl
@[simp] theorem setQueue_events (q : List Strike) (p : Part) : (setQueue q p).events = p.events := rfl
@[simp] theorem setQueue_verify (q : List Strike) (p : Part) : (setQueue q p).verify = p.verify := rfl
@[simp] theorem setQueue_counts (q : List Strike) (p : Part) : (setQueue q p).counts = p.counts := rfl
@[simp] theorem setQueue_freeUsed (q : List Strike) (p : Part) : (setQueue q p).freeUsed = p.freeUsed := rfl

@[simp] theorem setLine_lineTime (n : LineIx) (f : GuardLine → GuardLine) (p : Part) : (setLine n f p).lineTime = p.lineTime := rfl
@[simp] theorem setLine_phase (n : LineIx) (f : GuardLine → GuardLine) (p : Part) : (setLine n f p).phase = p.phase := rfl
@[simp] theorem setLine_resetMs (n : LineIx) (f : GuardLine → GuardLine) (p : Part) : (setLine n f p).resetMs = p.resetMs := rfl
@[simp] theorem setLine_resetHold (n : LineIx) (f : GuardLine → GuardLine) (p : Part) : (setLine n f p).resetHold = p.resetHold := rfl
@[simp] theorem setLine_up (n : LineIx) (f : GuardLine → GuardLine) (p : Part) : (setLine n f p).up = p.up := rfl
@[simp] theorem setLine_down (n : LineIx) (f : GuardLine → GuardLine) (p : Part) : (setLine n f p).down = p.down := rfl
@[simp] theorem setLine_filter (n : LineIx) (f : GuardLine → GuardLine) (p : Part) : (setLine n f p).filter = p.filter := rfl
@[simp] theorem setLine_out (n : LineIx) (f : GuardLine → GuardLine) (p : Part) : (setLine n f p).out = p.out := rfl
@[simp] theorem setLine_table (n : LineIx) (f : GuardLine → GuardLine) (p : Part) : (setLine n f p).table = p.table := rfl
@[simp] theorem setLine_cal (n : LineIx) (f : GuardLine → GuardLine) (p : Part) : (setLine n f p).cal = p.cal := rfl
@[simp] theorem setLine_settings (n : LineIx) (f : GuardLine → GuardLine) (p : Part) : (setLine n f p).settings = p.settings := rfl
@[simp] theorem setLine_slots (n : LineIx) (f : GuardLine → GuardLine) (p : Part) : (setLine n f p).slots = p.slots := rfl
@[simp] theorem setLine_contexts (n : LineIx) (f : GuardLine → GuardLine) (p : Part) : (setLine n f p).contexts = p.contexts := rfl
@[simp] theorem setLine_bellOwner (n : LineIx) (f : GuardLine → GuardLine) (p : Part) : (setLine n f p).bellOwner = p.bellOwner := rfl
@[simp] theorem setLine_figOwner (n : LineIx) (f : GuardLine → GuardLine) (p : Part) : (setLine n f p).figOwner = p.figOwner := rfl
@[simp] theorem setLine_strikes (n : LineIx) (f : GuardLine → GuardLine) (p : Part) : (setLine n f p).strikes = p.strikes := rfl
@[simp] theorem setLine_figures (n : LineIx) (f : GuardLine → GuardLine) (p : Part) : (setLine n f p).figures = p.figures := rfl
@[simp] theorem setLine_guard (n : LineIx) (f : GuardLine → GuardLine) (p : Part) :
    (setLine n f p).guard = { p.guard with lines := p.guard.lines.update n f } := rfl
@[simp] theorem setLine_events (n : LineIx) (f : GuardLine → GuardLine) (p : Part) : (setLine n f p).events = p.events := rfl
@[simp] theorem setLine_verify (n : LineIx) (f : GuardLine → GuardLine) (p : Part) : (setLine n f p).verify = p.verify := rfl
@[simp] theorem setLine_counts (n : LineIx) (f : GuardLine → GuardLine) (p : Part) : (setLine n f p).counts = p.counts := rfl
@[simp] theorem setLine_freeUsed (n : LineIx) (f : GuardLine → GuardLine) (p : Part) : (setLine n f p).freeUsed = p.freeUsed := rfl

@[simp] theorem setTimer_lineTime (t : TimerIx) (f : CueTimer → CueTimer) (p : Part) : (setTimer t f p).lineTime = p.lineTime := rfl
@[simp] theorem setTimer_phase (t : TimerIx) (f : CueTimer → CueTimer) (p : Part) : (setTimer t f p).phase = p.phase := rfl
@[simp] theorem setTimer_resetMs (t : TimerIx) (f : CueTimer → CueTimer) (p : Part) : (setTimer t f p).resetMs = p.resetMs := rfl
@[simp] theorem setTimer_resetHold (t : TimerIx) (f : CueTimer → CueTimer) (p : Part) : (setTimer t f p).resetHold = p.resetHold := rfl
@[simp] theorem setTimer_up (t : TimerIx) (f : CueTimer → CueTimer) (p : Part) : (setTimer t f p).up = p.up := rfl
@[simp] theorem setTimer_down (t : TimerIx) (f : CueTimer → CueTimer) (p : Part) : (setTimer t f p).down = p.down := rfl
@[simp] theorem setTimer_filter (t : TimerIx) (f : CueTimer → CueTimer) (p : Part) : (setTimer t f p).filter = p.filter := rfl
@[simp] theorem setTimer_out (t : TimerIx) (f : CueTimer → CueTimer) (p : Part) : (setTimer t f p).out = p.out := rfl
@[simp] theorem setTimer_table (t : TimerIx) (f : CueTimer → CueTimer) (p : Part) : (setTimer t f p).table = p.table := rfl
@[simp] theorem setTimer_cal (t : TimerIx) (f : CueTimer → CueTimer) (p : Part) :
    (setTimer t f p).cal = { p.cal with timers := p.cal.timers.update t f } := rfl
@[simp] theorem setTimer_settings (t : TimerIx) (f : CueTimer → CueTimer) (p : Part) : (setTimer t f p).settings = p.settings := rfl
@[simp] theorem setTimer_slots (t : TimerIx) (f : CueTimer → CueTimer) (p : Part) : (setTimer t f p).slots = p.slots := rfl
@[simp] theorem setTimer_contexts (t : TimerIx) (f : CueTimer → CueTimer) (p : Part) : (setTimer t f p).contexts = p.contexts := rfl
@[simp] theorem setTimer_bellOwner (t : TimerIx) (f : CueTimer → CueTimer) (p : Part) : (setTimer t f p).bellOwner = p.bellOwner := rfl
@[simp] theorem setTimer_figOwner (t : TimerIx) (f : CueTimer → CueTimer) (p : Part) : (setTimer t f p).figOwner = p.figOwner := rfl
@[simp] theorem setTimer_strikes (t : TimerIx) (f : CueTimer → CueTimer) (p : Part) : (setTimer t f p).strikes = p.strikes := rfl
@[simp] theorem setTimer_figures (t : TimerIx) (f : CueTimer → CueTimer) (p : Part) : (setTimer t f p).figures = p.figures := rfl
@[simp] theorem setTimer_guard (t : TimerIx) (f : CueTimer → CueTimer) (p : Part) : (setTimer t f p).guard = p.guard := rfl
@[simp] theorem setTimer_events (t : TimerIx) (f : CueTimer → CueTimer) (p : Part) : (setTimer t f p).events = p.events := rfl
@[simp] theorem setTimer_verify (t : TimerIx) (f : CueTimer → CueTimer) (p : Part) : (setTimer t f p).verify = p.verify := rfl
@[simp] theorem setTimer_counts (t : TimerIx) (f : CueTimer → CueTimer) (p : Part) : (setTimer t f p).counts = p.counts := rfl
@[simp] theorem setTimer_freeUsed (t : TimerIx) (f : CueTimer → CueTimer) (p : Part) : (setTimer t f p).freeUsed = p.freeUsed := rfl

@[simp] theorem setCal_lineTime (f : CalendarUnit → CalendarUnit) (p : Part) : (setCal f p).lineTime = p.lineTime := rfl
@[simp] theorem setCal_phase (f : CalendarUnit → CalendarUnit) (p : Part) : (setCal f p).phase = p.phase := rfl
@[simp] theorem setCal_resetMs (f : CalendarUnit → CalendarUnit) (p : Part) : (setCal f p).resetMs = p.resetMs := rfl
@[simp] theorem setCal_resetHold (f : CalendarUnit → CalendarUnit) (p : Part) : (setCal f p).resetHold = p.resetHold := rfl
@[simp] theorem setCal_up (f : CalendarUnit → CalendarUnit) (p : Part) : (setCal f p).up = p.up := rfl
@[simp] theorem setCal_down (f : CalendarUnit → CalendarUnit) (p : Part) : (setCal f p).down = p.down := rfl
@[simp] theorem setCal_filter (f : CalendarUnit → CalendarUnit) (p : Part) : (setCal f p).filter = p.filter := rfl
@[simp] theorem setCal_out (f : CalendarUnit → CalendarUnit) (p : Part) : (setCal f p).out = p.out := rfl
@[simp] theorem setCal_table (f : CalendarUnit → CalendarUnit) (p : Part) : (setCal f p).table = p.table := rfl
@[simp] theorem setCal_cal (f : CalendarUnit → CalendarUnit) (p : Part) :
    (setCal f p).cal = f p.cal := rfl
@[simp] theorem setCal_settings (f : CalendarUnit → CalendarUnit) (p : Part) : (setCal f p).settings = p.settings := rfl
@[simp] theorem setCal_slots (f : CalendarUnit → CalendarUnit) (p : Part) : (setCal f p).slots = p.slots := rfl
@[simp] theorem setCal_contexts (f : CalendarUnit → CalendarUnit) (p : Part) : (setCal f p).contexts = p.contexts := rfl
@[simp] theorem setCal_bellOwner (f : CalendarUnit → CalendarUnit) (p : Part) : (setCal f p).bellOwner = p.bellOwner := rfl
@[simp] theorem setCal_figOwner (f : CalendarUnit → CalendarUnit) (p : Part) : (setCal f p).figOwner = p.figOwner := rfl
@[simp] theorem setCal_strikes (f : CalendarUnit → CalendarUnit) (p : Part) : (setCal f p).strikes = p.strikes := rfl
@[simp] theorem setCal_figures (f : CalendarUnit → CalendarUnit) (p : Part) : (setCal f p).figures = p.figures := rfl
@[simp] theorem setCal_guard (f : CalendarUnit → CalendarUnit) (p : Part) : (setCal f p).guard = p.guard := rfl
@[simp] theorem setCal_events (f : CalendarUnit → CalendarUnit) (p : Part) : (setCal f p).events = p.events := rfl
@[simp] theorem setCal_verify (f : CalendarUnit → CalendarUnit) (p : Part) : (setCal f p).verify = p.verify := rfl
@[simp] theorem setCal_counts (f : CalendarUnit → CalendarUnit) (p : Part) : (setCal f p).counts = p.counts := rfl
@[simp] theorem setCal_freeUsed (f : CalendarUnit → CalendarUnit) (p : Part) : (setCal f p).freeUsed = p.freeUsed := rfl

@[simp] theorem setCounts_lineTime (f : Counts → Counts) (p : Part) : (setCounts f p).lineTime = p.lineTime := rfl
@[simp] theorem setCounts_phase (f : Counts → Counts) (p : Part) : (setCounts f p).phase = p.phase := rfl
@[simp] theorem setCounts_resetMs (f : Counts → Counts) (p : Part) : (setCounts f p).resetMs = p.resetMs := rfl
@[simp] theorem setCounts_resetHold (f : Counts → Counts) (p : Part) : (setCounts f p).resetHold = p.resetHold := rfl
@[simp] theorem setCounts_up (f : Counts → Counts) (p : Part) : (setCounts f p).up = p.up := rfl
@[simp] theorem setCounts_down (f : Counts → Counts) (p : Part) : (setCounts f p).down = p.down := rfl
@[simp] theorem setCounts_filter (f : Counts → Counts) (p : Part) : (setCounts f p).filter = p.filter := rfl
@[simp] theorem setCounts_out (f : Counts → Counts) (p : Part) : (setCounts f p).out = p.out := rfl
@[simp] theorem setCounts_table (f : Counts → Counts) (p : Part) : (setCounts f p).table = p.table := rfl
@[simp] theorem setCounts_cal (f : Counts → Counts) (p : Part) : (setCounts f p).cal = p.cal := rfl
@[simp] theorem setCounts_settings (f : Counts → Counts) (p : Part) : (setCounts f p).settings = p.settings := rfl
@[simp] theorem setCounts_slots (f : Counts → Counts) (p : Part) : (setCounts f p).slots = p.slots := rfl
@[simp] theorem setCounts_contexts (f : Counts → Counts) (p : Part) : (setCounts f p).contexts = p.contexts := rfl
@[simp] theorem setCounts_bellOwner (f : Counts → Counts) (p : Part) : (setCounts f p).bellOwner = p.bellOwner := rfl
@[simp] theorem setCounts_figOwner (f : Counts → Counts) (p : Part) : (setCounts f p).figOwner = p.figOwner := rfl
@[simp] theorem setCounts_strikes (f : Counts → Counts) (p : Part) : (setCounts f p).strikes = p.strikes := rfl
@[simp] theorem setCounts_figures (f : Counts → Counts) (p : Part) : (setCounts f p).figures = p.figures := rfl
@[simp] theorem setCounts_guard (f : Counts → Counts) (p : Part) : (setCounts f p).guard = p.guard := rfl
@[simp] theorem setCounts_events (f : Counts → Counts) (p : Part) : (setCounts f p).events = p.events := rfl
@[simp] theorem setCounts_verify (f : Counts → Counts) (p : Part) : (setCounts f p).verify = p.verify := rfl
@[simp] theorem setCounts_counts (f : Counts → Counts) (p : Part) :
    (setCounts f p).counts = f p.counts := rfl
@[simp] theorem setCounts_freeUsed (f : Counts → Counts) (p : Part) : (setCounts f p).freeUsed = p.freeUsed := rfl

@[simp] theorem setOut_lineTime (f : Outbound → Outbound) (p : Part) : (setOut f p).lineTime = p.lineTime := rfl
@[simp] theorem setOut_phase (f : Outbound → Outbound) (p : Part) : (setOut f p).phase = p.phase := rfl
@[simp] theorem setOut_resetMs (f : Outbound → Outbound) (p : Part) : (setOut f p).resetMs = p.resetMs := rfl
@[simp] theorem setOut_resetHold (f : Outbound → Outbound) (p : Part) : (setOut f p).resetHold = p.resetHold := rfl
@[simp] theorem setOut_up (f : Outbound → Outbound) (p : Part) : (setOut f p).up = p.up := rfl
@[simp] theorem setOut_down (f : Outbound → Outbound) (p : Part) : (setOut f p).down = p.down := rfl
@[simp] theorem setOut_filter (f : Outbound → Outbound) (p : Part) : (setOut f p).filter = p.filter := rfl
@[simp] theorem setOut_out (f : Outbound → Outbound) (p : Part) :
    (setOut f p).out = f p.out := rfl
@[simp] theorem setOut_table (f : Outbound → Outbound) (p : Part) : (setOut f p).table = p.table := rfl
@[simp] theorem setOut_cal (f : Outbound → Outbound) (p : Part) : (setOut f p).cal = p.cal := rfl
@[simp] theorem setOut_settings (f : Outbound → Outbound) (p : Part) : (setOut f p).settings = p.settings := rfl
@[simp] theorem setOut_slots (f : Outbound → Outbound) (p : Part) : (setOut f p).slots = p.slots := rfl
@[simp] theorem setOut_contexts (f : Outbound → Outbound) (p : Part) : (setOut f p).contexts = p.contexts := rfl
@[simp] theorem setOut_bellOwner (f : Outbound → Outbound) (p : Part) : (setOut f p).bellOwner = p.bellOwner := rfl
@[simp] theorem setOut_figOwner (f : Outbound → Outbound) (p : Part) : (setOut f p).figOwner = p.figOwner := rfl
@[simp] theorem setOut_strikes (f : Outbound → Outbound) (p : Part) : (setOut f p).strikes = p.strikes := rfl
@[simp] theorem setOut_figures (f : Outbound → Outbound) (p : Part) : (setOut f p).figures = p.figures := rfl
@[simp] theorem setOut_guard (f : Outbound → Outbound) (p : Part) : (setOut f p).guard = p.guard := rfl
@[simp] theorem setOut_events (f : Outbound → Outbound) (p : Part) : (setOut f p).events = p.events := rfl
@[simp] theorem setOut_verify (f : Outbound → Outbound) (p : Part) : (setOut f p).verify = p.verify := rfl
@[simp] theorem setOut_counts (f : Outbound → Outbound) (p : Part) : (setOut f p).counts = p.counts := rfl
@[simp] theorem setOut_freeUsed (f : Outbound → Outbound) (p : Part) : (setOut f p).freeUsed = p.freeUsed := rfl

@[simp] theorem setFilterUnit_lineTime (f : FilterUnit → FilterUnit) (p : Part) : (setFilterUnit f p).lineTime = p.lineTime := rfl
@[simp] theorem setFilterUnit_phase (f : FilterUnit → FilterUnit) (p : Part) : (setFilterUnit f p).phase = p.phase := rfl
@[simp] theorem setFilterUnit_resetMs (f : FilterUnit → FilterUnit) (p : Part) : (setFilterUnit f p).resetMs = p.resetMs := rfl
@[simp] theorem setFilterUnit_resetHold (f : FilterUnit → FilterUnit) (p : Part) : (setFilterUnit f p).resetHold = p.resetHold := rfl
@[simp] theorem setFilterUnit_up (f : FilterUnit → FilterUnit) (p : Part) : (setFilterUnit f p).up = p.up := rfl
@[simp] theorem setFilterUnit_down (f : FilterUnit → FilterUnit) (p : Part) : (setFilterUnit f p).down = p.down := rfl
@[simp] theorem setFilterUnit_filter (f : FilterUnit → FilterUnit) (p : Part) :
    (setFilterUnit f p).filter = f p.filter := rfl
@[simp] theorem setFilterUnit_out (f : FilterUnit → FilterUnit) (p : Part) : (setFilterUnit f p).out = p.out := rfl
@[simp] theorem setFilterUnit_table (f : FilterUnit → FilterUnit) (p : Part) : (setFilterUnit f p).table = p.table := rfl
@[simp] theorem setFilterUnit_cal (f : FilterUnit → FilterUnit) (p : Part) : (setFilterUnit f p).cal = p.cal := rfl
@[simp] theorem setFilterUnit_settings (f : FilterUnit → FilterUnit) (p : Part) : (setFilterUnit f p).settings = p.settings := rfl
@[simp] theorem setFilterUnit_slots (f : FilterUnit → FilterUnit) (p : Part) : (setFilterUnit f p).slots = p.slots := rfl
@[simp] theorem setFilterUnit_contexts (f : FilterUnit → FilterUnit) (p : Part) : (setFilterUnit f p).contexts = p.contexts := rfl
@[simp] theorem setFilterUnit_bellOwner (f : FilterUnit → FilterUnit) (p : Part) : (setFilterUnit f p).bellOwner = p.bellOwner := rfl
@[simp] theorem setFilterUnit_figOwner (f : FilterUnit → FilterUnit) (p : Part) : (setFilterUnit f p).figOwner = p.figOwner := rfl
@[simp] theorem setFilterUnit_strikes (f : FilterUnit → FilterUnit) (p : Part) : (setFilterUnit f p).strikes = p.strikes := rfl
@[simp] theorem setFilterUnit_figures (f : FilterUnit → FilterUnit) (p : Part) : (setFilterUnit f p).figures = p.figures := rfl
@[simp] theorem setFilterUnit_guard (f : FilterUnit → FilterUnit) (p : Part) : (setFilterUnit f p).guard = p.guard := rfl
@[simp] theorem setFilterUnit_events (f : FilterUnit → FilterUnit) (p : Part) : (setFilterUnit f p).events = p.events := rfl
@[simp] theorem setFilterUnit_verify (f : FilterUnit → FilterUnit) (p : Part) : (setFilterUnit f p).verify = p.verify := rfl
@[simp] theorem setFilterUnit_counts (f : FilterUnit → FilterUnit) (p : Part) : (setFilterUnit f p).counts = p.counts := rfl
@[simp] theorem setFilterUnit_freeUsed (f : FilterUnit → FilterUnit) (p : Part) : (setFilterUnit f p).freeUsed = p.freeUsed := rfl

@[simp] theorem setManagement_lineTime (q : List IntakeEntry) (p : Part) : (setManagement q p).lineTime = p.lineTime := rfl
@[simp] theorem setManagement_phase (q : List IntakeEntry) (p : Part) : (setManagement q p).phase = p.phase := rfl
@[simp] theorem setManagement_resetMs (q : List IntakeEntry) (p : Part) : (setManagement q p).resetMs = p.resetMs := rfl
@[simp] theorem setManagement_resetHold (q : List IntakeEntry) (p : Part) : (setManagement q p).resetHold = p.resetHold := rfl
@[simp] theorem setManagement_up (q : List IntakeEntry) (p : Part) : (setManagement q p).up = p.up := rfl
@[simp] theorem setManagement_down (q : List IntakeEntry) (p : Part) : (setManagement q p).down = p.down := rfl
@[simp] theorem setManagement_filter (q : List IntakeEntry) (p : Part) :
    (setManagement q p).filter = { p.filter with management := { p.filter.management with entries := q } } := rfl
@[simp] theorem setManagement_out (q : List IntakeEntry) (p : Part) : (setManagement q p).out = p.out := rfl
@[simp] theorem setManagement_table (q : List IntakeEntry) (p : Part) : (setManagement q p).table = p.table := rfl
@[simp] theorem setManagement_cal (q : List IntakeEntry) (p : Part) : (setManagement q p).cal = p.cal := rfl
@[simp] theorem setManagement_settings (q : List IntakeEntry) (p : Part) : (setManagement q p).settings = p.settings := rfl
@[simp] theorem setManagement_slots (q : List IntakeEntry) (p : Part) : (setManagement q p).slots = p.slots := rfl
@[simp] theorem setManagement_contexts (q : List IntakeEntry) (p : Part) : (setManagement q p).contexts = p.contexts := rfl
@[simp] theorem setManagement_bellOwner (q : List IntakeEntry) (p : Part) : (setManagement q p).bellOwner = p.bellOwner := rfl
@[simp] theorem setManagement_figOwner (q : List IntakeEntry) (p : Part) : (setManagement q p).figOwner = p.figOwner := rfl
@[simp] theorem setManagement_strikes (q : List IntakeEntry) (p : Part) : (setManagement q p).strikes = p.strikes := rfl
@[simp] theorem setManagement_figures (q : List IntakeEntry) (p : Part) : (setManagement q p).figures = p.figures := rfl
@[simp] theorem setManagement_guard (q : List IntakeEntry) (p : Part) : (setManagement q p).guard = p.guard := rfl
@[simp] theorem setManagement_events (q : List IntakeEntry) (p : Part) : (setManagement q p).events = p.events := rfl
@[simp] theorem setManagement_verify (q : List IntakeEntry) (p : Part) : (setManagement q p).verify = p.verify := rfl
@[simp] theorem setManagement_counts (q : List IntakeEntry) (p : Part) : (setManagement q p).counts = p.counts := rfl
@[simp] theorem setManagement_freeUsed (q : List IntakeEntry) (p : Part) : (setManagement q p).freeUsed = p.freeUsed := rfl

/-! ## Updates of a port -/

@[simp] theorem setPort_lineTime (w : Port) (f : LinePort → LinePort) (p : Part) : (setPort w f p).lineTime = p.lineTime := by
  cases w <;> rfl
@[simp] theorem setPort_phase (w : Port) (f : LinePort → LinePort) (p : Part) : (setPort w f p).phase = p.phase := by
  cases w <;> rfl
@[simp] theorem setPort_resetMs (w : Port) (f : LinePort → LinePort) (p : Part) : (setPort w f p).resetMs = p.resetMs := by
  cases w <;> rfl
@[simp] theorem setPort_resetHold (w : Port) (f : LinePort → LinePort) (p : Part) : (setPort w f p).resetHold = p.resetHold := by
  cases w <;> rfl
@[simp] theorem setPort_up (w : Port) (f : LinePort → LinePort) (p : Part) :
    (setPort w f p).up = if w = .upline then f p.up else p.up := by cases w <;> rfl
@[simp] theorem setPort_down (w : Port) (f : LinePort → LinePort) (p : Part) :
    (setPort w f p).down = if w = .downline then f p.down else p.down := by cases w <;> rfl
@[simp] theorem setPort_filter (w : Port) (f : LinePort → LinePort) (p : Part) : (setPort w f p).filter = p.filter := by
  cases w <;> rfl
@[simp] theorem setPort_out (w : Port) (f : LinePort → LinePort) (p : Part) : (setPort w f p).out = p.out := by
  cases w <;> rfl
@[simp] theorem setPort_table (w : Port) (f : LinePort → LinePort) (p : Part) : (setPort w f p).table = p.table := by
  cases w <;> rfl
@[simp] theorem setPort_cal (w : Port) (f : LinePort → LinePort) (p : Part) : (setPort w f p).cal = p.cal := by
  cases w <;> rfl
@[simp] theorem setPort_settings (w : Port) (f : LinePort → LinePort) (p : Part) : (setPort w f p).settings = p.settings := by
  cases w <;> rfl
@[simp] theorem setPort_slots (w : Port) (f : LinePort → LinePort) (p : Part) : (setPort w f p).slots = p.slots := by
  cases w <;> rfl
@[simp] theorem setPort_contexts (w : Port) (f : LinePort → LinePort) (p : Part) : (setPort w f p).contexts = p.contexts := by
  cases w <;> rfl
@[simp] theorem setPort_bellOwner (w : Port) (f : LinePort → LinePort) (p : Part) : (setPort w f p).bellOwner = p.bellOwner := by
  cases w <;> rfl
@[simp] theorem setPort_figOwner (w : Port) (f : LinePort → LinePort) (p : Part) : (setPort w f p).figOwner = p.figOwner := by
  cases w <;> rfl
@[simp] theorem setPort_strikes (w : Port) (f : LinePort → LinePort) (p : Part) : (setPort w f p).strikes = p.strikes := by
  cases w <;> rfl
@[simp] theorem setPort_figures (w : Port) (f : LinePort → LinePort) (p : Part) : (setPort w f p).figures = p.figures := by
  cases w <;> rfl
@[simp] theorem setPort_guard (w : Port) (f : LinePort → LinePort) (p : Part) : (setPort w f p).guard = p.guard := by
  cases w <;> rfl
@[simp] theorem setPort_events (w : Port) (f : LinePort → LinePort) (p : Part) : (setPort w f p).events = p.events := by
  cases w <;> rfl
@[simp] theorem setPort_verify (w : Port) (f : LinePort → LinePort) (p : Part) : (setPort w f p).verify = p.verify := by
  cases w <;> rfl
@[simp] theorem setPort_counts (w : Port) (f : LinePort → LinePort) (p : Part) : (setPort w f p).counts = p.counts := by
  cases w <;> rfl
@[simp] theorem setPort_freeUsed (w : Port) (f : LinePort → LinePort) (p : Part) : (setPort w f p).freeUsed = p.freeUsed := by
  cases w <;> rfl

/-! ## Running a command -/

@[simp] theorem State.run_eq (s : State) (f : Part → Part) : s.run f = .next { s with part := f s.part } := rfl

theorem whenRunning_running (f : Part → Part) (p : Part) (h : p.phase = .running) : whenRunning f p = f p := if_pos h

theorem whenRunning_reset (f : Part → Part) (p : Part) (h : p.phase ≠ .running) : whenRunning f p = p := if_neg h

end Machine

end Sys2Proof
end

