-- ==== Sys2Proof/Laws/Noted.lean ====
section
/-! SUPPORT. What reads of table memory and latched causes can do to the part, said once: `Noted p q`. Every
operation that only reads, counts errors and latches causes is shown to be of this kind. -/

namespace Sys2Proof.Machine

/-- `q` is `p` after reads have been counted and captured and causes latched: the words of table memory and
every block but the event unit, OQ-REPORT and the counts are as they were, latches are only set, and OQ-REPORT
only grows, within its capacity. -/
structure Noted (p q : Part) : Prop where
  frame : q = { p with
    table := { p.table with capture := q.table.capture, corrected := q.table.corrected }
    events := q.events, out := { p.out with report := q.out.report }, counts := q.counts }
  grows : p.out.report <+: q.out.report
  room : p.out.report.length ≤ reportCapacity → q.out.report.length ≤ reportCapacity
  latched : ∀ k, member p.events.latches k = true → member q.events.latches k = true
  enables : q.events.enables = p.events.enables
  routeFrame : q.events.routeFrame = p.events.routeFrame
  routeStop : q.events.routeStop = p.events.routeStop
  routeBeacon : q.events.routeBeacon = p.events.routeBeacon

theorem Noted.refl (p : Part) : Noted p p :=
  ⟨rfl, List.prefix_refl _, id, fun _ h => h, rfl, rfl, rfl, rfl⟩

theorem Noted.trans {p q r : Part} (h : Noted p q) (k : Noted q r) : Noted p r where
  frame := by rw [k.frame, h.frame]
  grows := h.grows.trans k.grows
  room := k.room ∘ h.room
  latched n e := k.latched n (h.latched n e)
  enables := k.enables.trans h.enables
  routeFrame := k.routeFrame.trans h.routeFrame
  routeStop := k.routeStop.trans h.routeStop
  routeBeacon := k.routeBeacon.trans h.routeBeacon

/-! ## The fields that a noted part keeps -/

section
variable {p q : Part} (h : Noted p q)
include h

theorem Noted.lineTime : q.lineTime = p.lineTime := by rw [h.frame]
theorem Noted.phase : q.phase = p.phase := by rw [h.frame]
theorem Noted.resetMs : q.resetMs = p.resetMs := by rw [h.frame]
theorem Noted.up : q.up = p.up := by rw [h.frame]
theorem Noted.down : q.down = p.down := by rw [h.frame]
theorem Noted.filter : q.filter = p.filter := by rw [h.frame]
theorem Noted.words : q.table.words = p.table.words := by rw [h.frame]
theorem Noted.cal : q.cal = p.cal := by rw [h.frame]
theorem Noted.settings : q.settings = p.settings := by rw [h.frame]
theorem Noted.slots : q.slots = p.slots := by rw [h.frame]
theorem Noted.contexts : q.contexts = p.contexts := by rw [h.frame]
theorem Noted.bellOwner : q.bellOwner = p.bellOwner := by rw [h.frame]
theorem Noted.figOwner : q.figOwner = p.figOwner := by rw [h.frame]
theorem Noted.strikes : q.strikes = p.strikes := by rw [h.frame]
theorem Noted.figures : q.figures = p.figures := by rw [h.frame]
theorem Noted.guard : q.guard = p.guard := by rw [h.frame]
theorem Noted.verify : q.verify = p.verify := by rw [h.frame]
theorem Noted.freeUsed : q.freeUsed = p.freeUsed := by rw [h.frame]
theorem Noted.out : q.out = { p.out with report := q.out.report } := by rw [h.frame]
theorem Noted.table : q.table = { p.table with capture := q.table.capture, corrected := q.table.corrected } := by
  rw [h.frame]

end

/-! ## Causes -/

theorem setMember_getLsbD {n : Nat} (s : BitVec n) (j k : Nat) (h : j < n) :
    (setMember s j).getLsbD k = (s.getLsbD k || (k == j)) := by
  simp only [setMember, BitVec.getLsbD_or, BitVec.getLsbD_twoPow, h, decide_true, Bool.true_and]
  by_cases e : j = k
  · subst e; simp
  · have : (k == j) = false := by simpa using fun x => e x.symm
    simp [e, this]

theorem member_setMember_mono {n : Nat} (s : BitVec n) (j k : Nat) (h : member s k = true) :
    member (setMember s j) k = true := by
  simp only [member, setMember, BitVec.getLsbD_or] at *
  simp [h]

theorem appendReport_noted (f : Frame) (p : Part) : Noted p (appendReport f p) := by
  unfold appendReport
  split
  · next h =>
    exact ⟨rfl, List.prefix_append _ _, fun _ => (List.length_append (as := p.out.report) (bs := [f])).trans_le h,
      fun _ e => e, rfl, rfl, rfl, rfl⟩
  · exact ⟨rfl, List.prefix_refl _, id, fun _ e => e, rfl, rfl, rfl, rfl⟩

theorem answer_noted (e : IntakeEntry) (r : Result) (d : List Byte) (p : Part) : Noted p (answer e r d p) :=
  appendReport_noted _ p

theorem setCounts_noted (f : Counts → Counts) (p : Part) : Noted p (setCounts f p) :=
  ⟨rfl, List.prefix_refl _, id, fun _ e => e, rfl, rfl, rfl, rfl⟩

theorem raiseAttention_noted (p : Part) : Noted p (raiseAttention p) :=
  (appendReport_noted (attentionFrame p) p).trans
    ⟨rfl, List.prefix_refl _, id, fun _ e => e, rfl, rfl, rfl, rfl⟩

theorem causePins_noted (k : Nat) (p : Part) : Noted p (causePins k p) :=
  ⟨rfl, List.prefix_refl _, id, fun _ e => e, rfl, rfl, rfl, rfl⟩

theorem setLatch_noted (k : Nat) (p : Part) :
    Noted p { p with events := { p.events with latches := setMember p.events.latches k } } :=
  ⟨rfl, List.prefix_refl _, id, fun j e => member_setMember_mono _ k j e, rfl, rfl, rfl, rfl⟩

theorem latchEvent_noted (k : Nat) (p : Part) : Noted p (latchEvent k p) := by
  unfold latchEvent
  split
  · exact Noted.trans (q := { p with events := { p.events with repeats := setMember p.events.repeats k } })
      ⟨rfl, List.prefix_refl _, id, fun _ e => e, rfl, rfl, rfl, rfl⟩ (causePins_noted k _)
  · refine (setLatch_noted k p).trans (Noted.trans ?_ (causePins_noted k _))
    split
    · exact raiseAttention_noted _
    · exact Noted.refl _

theorem causePins_latches (k : Nat) (p : Part) : (causePins k p).events.latches = p.events.latches := rfl
theorem causePins_repeats (k : Nat) (p : Part) : (causePins k p).events.repeats = p.events.repeats := rfl

theorem appendReport_events (f : Frame) (p : Part) : (appendReport f p).events = p.events := by
  unfold appendReport; split <;> rfl

theorem raiseAttention_events (p : Part) :
    (raiseAttention p).events = { p.events with sequence := p.events.sequence + 1 } := by
  simp [raiseAttention, appendReport_events]

/-- R108: a cause sets its own latch and no other. -/
theorem latchEvent_latches (k : Nat) (p : Part) : (latchEvent k p).events.latches = setMember p.events.latches k := by
  unfold latchEvent
  split
  · next h =>
    rw [causePins_latches]
    apply BitVec.eq_of_getLsbD_eq
    intro j hj
    rw [member] at h
    simp only [setMember, BitVec.getLsbD_or, BitVec.getLsbD_twoPow]
    by_cases e : k = j
    · subst e; simp [h]
    · simp [e]
  · rw [causePins_latches]
    split
    · rw [raiseAttention_events]
    · rfl

/-- R108: a cause of a latched source sets its repeat flag; a first cause sets none. -/
theorem latchEvent_repeats (k : Nat) (p : Part) :
    (latchEvent k p).events.repeats =
      if member p.events.latches k then setMember p.events.repeats k else p.events.repeats := by
  unfold latchEvent
  split
  · rfl
  · rw [causePins_repeats]
    split
    · rw [raiseAttention_events]
    · rfl

/-! ## Reads -/

theorem offerCorrected_noted (rd : Reader) (a : Nat) (i : Fin 39) (p : Part) : Noted p (offerCorrected rd a i p) := by
  unfold offerCorrected
  split
  · exact Noted.trans (q := { p with table := { p.table with
      capture := { kind := .corrected, address := a, position := some i.val, reader := rd, repeated := false } } })
      ⟨rfl, List.prefix_refl _, id, fun _ e => e, rfl, rfl, rfl, rfl⟩ (latchEvent_noted _ _)
  · exact Noted.refl p
  · exact Noted.refl p

theorem offerUncorrectable_noted (rd : Reader) (a : Nat) (p : Part) : Noted p (offerUncorrectable rd a p) := by
  unfold offerUncorrectable
  refine Noted.trans ?_ (latchEvent_noted _ _)
  split <;> exact ⟨rfl, List.prefix_refl _, id, fun _ e => e, rfl, rfl, rfl, rfl⟩

theorem countCorrected_noted (p : Part) : Noted p (countCorrected p) :=
  ⟨rfl, List.prefix_refl _, id, fun _ e => e, rfl, rfl, rfl, rfl⟩

theorem readWord_noted (rd : Reader) (a : Nat) (p : Part) : Noted p (readWord rd a p).2 := by
  unfold readWord
  split
  · exact Noted.refl p
  · dsimp only
    split
    · exact Noted.refl p
    · exact (countCorrected_noted p).trans (offerCorrected_noted _ _ _ _)
    · exact offerUncorrectable_noted _ _ _

theorem readEach_noted (rd : Reader) (as : List Nat) (p : Part) : Noted p (readEach rd as p).2 := by
  induction as generalizing p with
  | nil => exact Noted.refl p
  | cons a rest ih => exact (readWord_noted rd a p).trans (ih _)

theorem readRecord_noted (rd : Reader) (base : Nat) (offsets : List Nat) (p : Part) :
    Noted p (readRecord rd base offsets p).2 := readEach_noted _ _ _

theorem readBell_noted (b : BellIx) (offsets : List Nat) (p : Part) : Noted p (readBell b offsets p).2 := by
  unfold readBell
  dsimp only
  split
  · exact readRecord_noted _ _ _ _
  · refine (readRecord_noted .record (bellBase b) offsets p).trans ?_
    exact setCounts_noted (fun c => { c with recordError := bump c.recordError }) _

theorem readPath_noted (pointer : Nat) (p : Part) : Noted p (readPath pointer p).2 := by
  unfold readPath
  dsimp only
  split
  · exact readWord_noted _ _ _
  · exact (readWord_noted _ _ _).trans (readEach_noted _ _ _)

theorem scanBells_noted (node channel : Nat) (hot : Bool) (bs : List BellIx) (p : Part) :
    Noted p (scanBells node channel hot bs p).2 := by
  induction bs generalizing p with
  | nil => exact Noted.refl p
  | cons b rest ih =>
    unfold scanBells
    dsimp only
    split
    · exact (readBell_noted _ _ _).trans (ih _)
    · split <;> exact (readBell_noted _ _ _).trans (ih _)

theorem drivenTarget_noted (g : LiveFigure) (rec : FigureRecord) (p : Part) : Noted p (drivenTarget g rec p).2 := by
  unfold drivenTarget
  split
  · split
    · exact Noted.refl p
    · dsimp only
      split
      · exact Noted.refl p
      · exact readPath_noted _ _
  · exact Noted.refl p

theorem readEntry_noted (k : ShowIx) (p : Part) : Noted p (readEntry k p).2 := by
  unfold readEntry
  dsimp only
  split
  · exact readEach_noted _ _ _
  · exact (readEach_noted _ _ _).trans (readEach_noted _ _ _)

theorem checkBarrel_noted (pointer : Nat) (p : Part) : Noted p (checkBarrel pointer p).2 := by
  unfold checkBarrel
  split
  · exact Noted.refl p
  · split
    · exact Noted.refl p
    · dsimp only
      split
      · exact readRecord_noted _ _ _ _
      · split
        · exact readRecord_noted _ _ _ _
        · split <;> exact (readRecord_noted _ _ _ _).trans (readEach_noted _ _ _)

theorem checkPath_noted (pointer : Nat) (p : Part) : Noted p (checkPath pointer p).2 := by
  unfold checkPath
  split
  · exact Noted.refl p
  · dsimp only
    split <;> exact readWord_noted _ _ _

theorem checkPaths_noted (items : List FigureItem) (p : Part) : Noted p (checkPaths items p).2 := by
  induction items generalizing p with
  | nil => exact Noted.refl p
  | cons i rest ih =>
    unfold checkPaths
    dsimp only
    split
    · exact checkPath_noted _ _
    · exact (checkPath_noted _ _).trans (ih _)

theorem checkShow_noted (k : ShowIx) (p : Part) : Noted p (checkShow k p).2 := by
  unfold checkShow
  dsimp only
  split
  · exact readEntry_noted k p
  · split
    · exact readEntry_noted k p
    · split
      · exact readEntry_noted k p
      · split
        · exact (readEntry_noted k p).trans (checkBarrel_noted _ _)
        · split <;>
            exact ((readEntry_noted k p).trans (checkBarrel_noted _ _)).trans (checkPaths_noted _ _)

theorem readCalendar_noted (is : List Nat) (p : Part) : Noted p (readCalendar is p).2 := by
  induction is generalizing p with
  | nil => exact Noted.refl p
  | cons i rest ih =>
    unfold readCalendar
    dsimp only
    split <;> exact (readRecord_noted _ _ _ _).trans (ih _)

theorem searchSlot_noted (slot : SlotIx) (bs : List DateTime) (p : Part) : Noted p (searchSlot slot bs p).2 := by
  induction bs generalizing p with
  | nil => exact Noted.refl p
  | cons b rest ih =>
    unfold searchSlot
    dsimp only
    split
    · exact readCalendar_noted _ _
    · exact (readCalendar_noted _ _).trans (ih _)

theorem loseStart_noted (p : Part) : Noted p (loseStart p) := latchEvent_noted _ _

end Sys2Proof.Machine
end

