-- ==== Sys2Proof/Laws/Carried.lean ====
section
/-! SUPPORT. What the hand-offs between blocks leave alone, said once: `Carried p q`. Notes, strikes, retargets,
brakes and their reads are shown to be of this kind; recomputing ownership and reading barrel steps are so but
for the owners and the slot's own context. -/

namespace Sys2Proof.Machine

/-- Line time, the ports, the filters, the words of table memory, the calendar, the settings, the slots and their
contexts, the owners, the guard lines and the verify unit are as they were. -/
structure Carried (p q : Part) : Prop where
  lineTime : q.lineTime = p.lineTime
  phase : q.phase = p.phase
  resetMs : q.resetMs = p.resetMs
  resetHold : q.resetHold = p.resetHold
  up : q.up = p.up
  down : q.down = p.down
  filter : q.filter = p.filter
  words : q.table.words = p.table.words
  cal : q.cal = p.cal
  settings : q.settings = p.settings
  slots : q.slots = p.slots
  contexts : q.contexts = p.contexts
  bellOwner : q.bellOwner = p.bellOwner
  figOwner : q.figOwner = p.figOwner
  guard : q.guard = p.guard
  verify : q.verify = p.verify

theorem Carried.refl (p : Part) : Carried p p := by constructor <;> rfl

theorem Carried.trans {p q r : Part} (h : Carried p q) (k : Carried q r) : Carried p r where
  lineTime := k.lineTime.trans h.lineTime
  phase := k.phase.trans h.phase
  resetMs := k.resetMs.trans h.resetMs
  resetHold := k.resetHold.trans h.resetHold
  up := k.up.trans h.up
  down := k.down.trans h.down
  filter := k.filter.trans h.filter
  words := k.words.trans h.words
  cal := k.cal.trans h.cal
  settings := k.settings.trans h.settings
  slots := k.slots.trans h.slots
  contexts := k.contexts.trans h.contexts
  bellOwner := k.bellOwner.trans h.bellOwner
  figOwner := k.figOwner.trans h.figOwner
  guard := k.guard.trans h.guard
  verify := k.verify.trans h.verify

theorem Noted.carried {p q : Part} (h : Noted p q) : Carried p q where
  lineTime := h.lineTime
  phase := h.phase
  resetMs := h.resetMs
  resetHold := by rw [h.frame]
  up := h.up
  down := h.down
  filter := h.filter
  words := h.words
  cal := h.cal
  settings := h.settings
  slots := h.slots
  contexts := h.contexts
  bellOwner := h.bellOwner
  figOwner := h.figOwner
  guard := h.guard
  verify := h.verify

/-- A fold of operations that carry the part carries it. -/
theorem foldl_carried {α : Type} (f : Part → α → Part) (as : List α) (p : Part) (h : ∀ q a, Carried q (f q a)) :
    Carried p (as.foldl f p) := by
  induction as generalizing p with
  | nil => exact Carried.refl p
  | cons a rest ih => exact (h p a).trans (ih (f p a))

/-! ## Updates -/

theorem setFigure_carried (k : FigIx) (f : LiveFigure → LiveFigure) (p : Part) : Carried p (setFigure k f p) := by
  constructor <;> rfl
theorem setBell_carried (b : BellIx) (f : BellState → BellState) (p : Part) : Carried p (setBell b f p) := by
  constructor <;> rfl
theorem setQueue_carried (q : List Strike) (p : Part) : Carried p (setQueue q p) := by constructor <;> rfl
theorem setOut_carried (f : Outbound → Outbound) (p : Part) : Carried p (setOut f p) := by constructor <;> rfl
theorem setCounts_carried (f : Counts → Counts) (p : Part) : Carried p (setCounts f p) := by constructor <;> rfl
theorem latchEvent_carried (k : Nat) (p : Part) : Carried p (latchEvent k p) := (latchEvent_noted k p).carried
theorem readBell_carried (b : BellIx) (o : List Nat) (p : Part) : Carried p (readBell b o p).2 := (readBell_noted b o p).carried
theorem drawByte_carried (p : Part) : Carried p (drawByte p).2 := by constructor <;> rfl

/-- R81: what a read of a figure record can do: words are read, and a good read sets the brake address. -/
theorem readFigure_frame (k : FigIx) (o : List Nat) (p : Part) :
    ∃ q, Noted p q ∧ ((readFigure k o p) = (none, q) ∨ ∃ rec, readFigure k o p = (some rec, setFigure k (·.braked rec) q)) := by
  refine ⟨_, readRecord_noted .record (figureBase k) o p, ?_⟩
  unfold readFigure
  dsimp only
  split
  · exact .inr ⟨_, rfl⟩
  · exact .inl rfl

theorem readFigure_carried (k : FigIx) (o : List Nat) (p : Part) : Carried p (readFigure k o p).2 := by
  obtain ⟨q, hq, h | ⟨rec, h⟩⟩ := readFigure_frame k o p
  · rw [h]; exact hq.carried
  · rw [h]; exact hq.carried.trans (setFigure_carried _ _ _)

/-- R81: a read of a figure record changes no figure but in its brake address. -/
theorem readFigure_figures (k : FigIx) (o : List Nat) (p : Part) (j : FigIx) :
    ∃ b, (readFigure k o p).2.figures.read j = { p.figures.read j with brake := b } := by
  obtain ⟨q, hq, h | ⟨rec, h⟩⟩ := readFigure_frame k o p
  · rw [h]; exact ⟨(p.figures.read j).brake, by rw [hq.figures]⟩
  · rw [h]
    by_cases e : j = k
    · subst e
      simp only [setFigure, Bank.read_update_self, hq.figures, LiveFigure.braked]
      split
      · exact ⟨(p.figures.read j).brake, rfl⟩
      · exact ⟨some _, rfl⟩
    · exact ⟨(p.figures.read j).brake, by
        simp only [setFigure, Bank.read_update_ne _ _ _ _ e, hq.figures]⟩

theorem resolveItems_carried (items : List FigureItem) (is : List (Fin 8 × FigIx)) (listed : List (FigIx × Drive)) (p : Part) :
    Carried p (resolveItems items is listed p).2 := by
  induction is generalizing listed p with
  | nil => exact Carried.refl p
  | cons x rest ih =>
    unfold resolveItems
    dsimp only
    split <;> exact (readFigure_carried _ _ _).trans (ih _ _)

theorem scanFigures_carried (node channel : Nat) (ks : List FigIx) (p : Part) :
    Carried p (scanFigures node channel ks p).2 := by
  induction ks generalizing p with
  | nil => exact Carried.refl p
  | cons k rest ih =>
    unfold scanFigures
    dsimp only
    split
    · exact (readFigure_carried _ _ _).trans (ih _)
    · split <;> exact (readFigure_carried _ _ _).trans (ih _)

theorem appendBrake_carried (d c : Byte) (p : Part) : Carried p (appendBrake d c p) := by
  unfold appendBrake
  split
  · exact (drawByte_carried p).trans (setOut_carried _ _)
  · exact setCounts_carried _ _

/-! ## Strikes -/

/-- R65: what a release run can do: the first entries of the strike queue go to the end of OQ-STRIKE, and the
released instants of bells change. -/
theorem releaseLoop_frame (n : Nat) (p : Part) : ∃ (gone rest : List Strike) (bells : Bank BellState 48),
    p.strikes.queue = gone ++ rest ∧
    releaseLoop n p = { p with
      strikes := { queue := rest, bells := bells }
      out := { p.out with strike := p.out.strike ++ gone.map fun g => StrikeFrame.mk g.bell g.velocity g.fire } } := by
  induction n generalizing p with
  | zero => exact ⟨[], p.strikes.queue, p.strikes.bells, rfl, by simp [releaseLoop]⟩
  | succ n ih =>
    unfold releaseLoop
    split
    · exact ⟨[], p.strikes.queue, p.strikes.bells, rfl, by simp⟩
    · next e rest h =>
      split
      · obtain ⟨gone, rest', bells, hq, hr⟩ := ih (releaseStrike e rest p)
        refine ⟨e :: gone, rest', bells, ?_, ?_⟩
        · rw [h]; exact congrArg (e :: ·) hq
        · rw [hr]; simp [releaseStrike, setBell, setOut, setQueue]
      · exact ⟨[], p.strikes.queue, p.strikes.bells, rfl, by simp⟩

theorem releaseDue_frame (p : Part) : ∃ (gone rest : List Strike) (bells : Bank BellState 48),
    p.strikes.queue = gone ++ rest ∧
    releaseDue p = { p with
      strikes := { queue := rest, bells := bells }
      out := { p.out with strike := p.out.strike ++ gone.map fun g => StrikeFrame.mk g.bell g.velocity g.fire } } :=
  releaseLoop_frame _ p

theorem releaseDue_carried (p : Part) : Carried p (releaseDue p) := by
  obtain ⟨_, _, _, _, h⟩ := releaseDue_frame p
  rw [h]
  constructor <;> rfl

/-- R65: a release moves strikes between the two queues and loses none. -/
theorem releaseDue_total (p : Part) :
    (releaseDue p).out.strike.length + (releaseDue p).strikes.queue.length =
      p.out.strike.length + p.strikes.queue.length := by
  obtain ⟨gone, rest, bells, hq, h⟩ := releaseDue_frame p
  rw [h, hq]
  simp only [List.length_append, List.length_map]
  omega

/-- R64: an insertion places the entry behind every entry up to the first that fires later, and in front of that one. -/
theorem insertStrike_split (n : Strike) (l : List Strike) : ∃ before after, l = before ++ after ∧
    insertStrike n l = before ++ n :: after ∧ (∀ e ∈ before, e.fire ≤ n.fire) ∧ ∀ e, after.head? = some e → n.fire < e.fire := by
  induction l with
  | nil => exact ⟨[], [], rfl, rfl, by simp, by simp⟩
  | cons e rest ih =>
    unfold insertStrike
    split
    · next h =>
      obtain ⟨before, after, hl, hi, hb, ha⟩ := ih
      refine ⟨e :: before, after, by rw [hl]; rfl, by rw [hi]; rfl, ?_, ha⟩
      intro x hx
      rcases List.mem_cons.mp hx with rfl | hx
      · exact h
      · exact hb x hx
    · next h =>
      refine ⟨[], e :: rest, rfl, rfl, by simp, ?_⟩
      intro x hx
      cases hx
      omega

theorem removeStrikes_carried (gone : Strike → Bool) (p : Part) : Carried p (removeStrikes gone p) := by
  unfold removeStrikes
  dsimp only
  split
  · exact (setQueue_carried _ p).trans (releaseDue_carried _)
  · exact setQueue_carried _ p

/-- R72, R73: what a removal can do: the entries that stay keep their order, the first of them may be released to the
end of OQ-STRIKE, and none of the removed ones is. -/
theorem removeStrikes_frame (gone : Strike → Bool) (p : Part) : ∃ (sent rest : List Strike) (bells : Bank BellState 48),
    (p.strikes.queue.filter fun e => !gone e) = sent ++ rest ∧
    removeStrikes gone p = { p with
      strikes := { queue := rest, bells := bells }
      out := { p.out with strike := p.out.strike ++ sent.map fun g => StrikeFrame.mk g.bell g.velocity g.fire } } := by
  unfold removeStrikes
  dsimp only
  split
  · obtain ⟨sent, rest, bells, hq, h⟩ := releaseDue_frame (setQueue (p.strikes.queue.filter fun e => !gone e) p)
    exact ⟨sent, rest, bells, hq, h⟩
  · exact ⟨[], _, p.strikes.bells, rfl, by simp [setQueue]⟩

/-- R72: a removal that leaves the head in its place releases nothing. -/
theorem removeStrikes_head_stays (gone : Strike → Bool) (p : Part) (h : ∀ e, p.strikes.queue.head? = some e → gone e = false) :
    removeStrikes gone p = setQueue (p.strikes.queue.filter fun e => !gone e) p := by
  unfold removeStrikes
  dsimp only
  rw [if_neg]
  cases e : p.strikes.queue.head? with
  | none => simp
  | some x => simp [h x e]

theorem withdrawLost_carried (before : Bank (Option SlotIx) 48) (p : Part) : Carried p (withdrawLost before p) :=
  removeStrikes_carried _ p

theorem withdrawBell_carried (b : BellIx) (p : Part) : Carried p (withdrawBell b p) := removeStrikes_carried _ p

theorem enqueueStrike_carried (n : Strike) (p : Part) : Carried p (enqueueStrike n p) := by
  unfold enqueueStrike
  dsimp only
  split
  · exact (setQueue_carried _ p).trans (releaseDue_carried _)
  · exact setQueue_carried _ p

theorem placeNote_carried (s : SlotIx) (b : BellIx) (rec : BellRecord) (v n : Nat) (p : Part) :
    Carried p (placeNote s b rec v n p) := by
  unfold placeNote
  dsimp only
  split
  · exact setCounts_carried _ _
  · split
    · exact (setQueue_carried _ p).trans (setCounts_carried _ _)
    · split
      · exact (setCounts_carried _ p).trans (latchEvent_carried _ _)
      · exact enqueueStrike_carried _ p

theorem substituteNote_carried (s : SlotIx) (rec : BellRecord) (v n : Nat) (p : Part) :
    Carried p (substituteNote s rec v n p) := by
  unfold substituteNote
  split
  · exact setCounts_carried _ _
  · split
    · exact setCounts_carried _ _
    · dsimp only
      split
      · exact (readBell_carried _ _ p).trans (setCounts_carried _ _)
      · split
        · exact (readBell_carried _ _ p).trans (setCounts_carried _ _)
        · exact (readBell_carried _ _ p).trans (placeNote_carried _ _ _ _ _ _)

theorem handNote_carried (s : SlotIx) (b : BellIx) (v instant : Nat) (p : Part) : Carried p (handNote s b v instant p) := by
  unfold handNote
  split
  · exact setCounts_carried _ _
  · dsimp only
    split
    · split
      · exact readBell_carried _ _ p
      · exact (readBell_carried _ _ p).trans (placeNote_carried _ _ _ _ _ _)
    · split
      · exact readBell_carried _ _ p
      · exact (readBell_carried _ _ p).trans (substituteNote_carried _ _ _ _ _)
    · split
      · exact readBell_carried _ _ p
      · exact (readBell_carried _ _ p).trans (substituteNote_carried _ _ _ _ _)

theorem passNote_carried (s : SlotIx) (entry v instant : Nat) (p : Part) : Carried p (passNote s entry v instant p) := by
  unfold passNote
  split
  · exact setCounts_carried _ _
  · dsimp only
    split
    · exact readBell_carried _ _ p
    · split
      · exact (readBell_carried _ _ p).trans (setCounts_carried _ _)
      · exact (readBell_carried _ _ p).trans (handNote_carried _ _ _ _ _)

theorem readRow_carried (s : SlotIx) (x : BarrelContext) (k : Nat) (p : Part) : Carried p (readRow s x k p) := by
  unfold readRow
  dsimp only
  split
  · exact (readWord_noted _ _ p).carried.trans (setCounts_carried _ _)
  · split
    · exact (readWord_noted _ _ p).carried
    · exact (readWord_noted _ _ p).carried.trans (passNote_carried _ _ _ _ _)

/-- R49, R54: reading a step changes the slot's own context and hands notes on. -/
theorem readStep_carried (s : SlotIx) (p : Part) :
    ∃ q, Carried p q ∧ readStep s p = setContext s (·.advanced (p.slots.read s).reps) q :=
  ⟨_, foldl_carried _ _ p fun q k => readRow_carried s (p.contexts.read s) k q, rfl⟩

/-- R48: reading the due steps changes no context but the slot's own, and hands notes on. -/
theorem readDueSteps_carried (s : SlotIx) (p : Part) :
    Carried p { readDueSteps s p with contexts := p.contexts } ∧
      ∀ j, j ≠ s → (readDueSteps s p).contexts.read j = p.contexts.read j := by
  unfold readDueSteps
  generalize (p.slots.read s).reps * ((p.contexts.read s).lastStep + 1) = n
  induction n generalizing p with
  | zero => exact ⟨Carried.refl p, fun _ _ => rfl⟩
  | succ n ih =>
    unfold readLoop
    split
    · obtain ⟨q, hq, e⟩ := readStep_carried s p
      obtain ⟨h1, h2⟩ := ih (readStep s p)
      rw [e] at h1 h2 ⊢
      refine ⟨?_, fun j hj => ?_⟩
      · exact {
          lineTime := h1.lineTime.trans hq.lineTime
          phase := h1.phase.trans hq.phase
          resetMs := h1.resetMs.trans hq.resetMs
          resetHold := h1.resetHold.trans hq.resetHold
          up := h1.up.trans hq.up
          down := h1.down.trans hq.down
          filter := h1.filter.trans hq.filter
          words := h1.words.trans hq.words
          cal := h1.cal.trans hq.cal
          settings := h1.settings.trans hq.settings
          slots := h1.slots.trans hq.slots
          contexts := rfl
          bellOwner := h1.bellOwner.trans hq.bellOwner
          figOwner := h1.figOwner.trans hq.figOwner
          guard := h1.guard.trans hq.guard
          verify := h1.verify.trans hq.verify }
      · rw [h2 j hj, ← hq.contexts]
        exact Bank.read_update_ne _ _ _ _ hj
    · exact ⟨Carried.refl p, fun _ _ => rfl⟩

/-! ## Figures -/

theorem brakeFigure_carried (k : FigIx) (p : Part) : Carried p (brakeFigure k p) := by
  unfold brakeFigure
  split <;> exact appendBrake_carried _ _ _

theorem removePoses_carried (k : FigIx) (p : Part) : Carried p (removePoses k p) := setOut_carried _ _

theorem faultMoving_carried (k : FigIx) (why : FaultReason) (p : Part) : Carried p (faultMoving k why p) :=
  (((removePoses_carried k p).trans (brakeFigure_carried _ _)).trans (setFigure_carried _ _ _)).trans (latchEvent_carried _ _)

theorem faultFrozen_carried (k : FigIx) (p : Part) : Carried p (faultFrozen k p) :=
  (setFigure_carried _ _ p).trans (latchEvent_carried _ _)

theorem addHold_carried (k : FigIx) (n : LineIx) (a : Bool) (p : Part) : Carried p (addHold k n a p) := by
  have held := setFigure_carried k (fun g => { g with hold := setMember g.hold n.val }) p
  unfold addHold
  dsimp only
  split
  · split
    · exact (held.trans (removePoses_carried k _)).trans (setFigure_carried _ _ _)
    · exact ((held.trans (removePoses_carried k _)).trans (brakeFigure_carried _ _)).trans (setFigure_carried _ _ _)
  · split
    · exact (held.trans (removePoses_carried k _)).trans (setFigure_carried _ _ _)
    · exact ((held.trans (removePoses_carried k _)).trans (brakeFigure_carried _ _)).trans (setFigure_carried _ _ _)
  · exact held.trans (setFigure_carried _ _ _)
  · exact held
  · exact held

theorem resync_carried (k : FigIx) (p : Part) : Carried p (resync k p) := by
  unfold resync
  dsimp only
  split
  · exact (readFigure_carried _ _ p).trans (faultFrozen_carried _ _)
  · exact (readFigure_carried _ _ p).trans (setFigure_carried _ _ _)

theorem removeHold_carried (n : LineIx) (k : FigIx) (p : Part) : Carried p (removeHold n k p) := by
  unfold removeHold
  dsimp only
  split
  · split
    · exact (setFigure_carried _ _ p).trans (resync_carried _ _)
    · exact setFigure_carried _ _ p
  · exact Carried.refl p

theorem driveIdle_carried (k : FigIx) (p : Part) : Carried p (driveIdle k p) :=
  (readFigure_carried _ _ p).trans (setFigure_carried _ _ _)

theorem retarget_carried (k : FigIx) (owner : Option SlotIx) (drive : Option Drive) (p : Part) :
    Carried p (retarget k owner drive p) := by
  have h := setFigure_carried k (fun g => { g with owner := owner, drive := drive }) p
  unfold retarget
  dsimp only
  split
  · exact h.trans (driveIdle_carried _ _)
  · exact h
  · exact h
  · exact h.trans (setFigure_carried _ _ _)
  · exact h.trans (setFigure_carried _ _ _)
  · exact h
  · exact h
  · exact h

/-! ## Ownership (R39, R41) -/

theorem handRetarget_carried (before : Bank (Option SlotIx) 16) (k : FigIx) (p : Part) :
    Carried p (handRetarget before k p) := by
  unfold handRetarget
  dsimp only
  split
  · exact Carried.refl p
  · exact retarget_carried _ _ _ p

/-- R39, R41: recomputing gives every bell and figure the owner that the slots give it, and hands off. -/
theorem recompute_carried (p : Part) :
    Carried { p with bellOwner := Vector.ofFn (bellClaim p.slots), figOwner := Vector.ofFn (figureClaim p.slots) }
      (recompute p) :=
  (withdrawLost_carried p.bellOwner _).trans
    (foldl_carried _ _ _ fun q k => handRetarget_carried p.figOwner k q)

theorem recompute_guard (p : Part) : (recompute p).guard = p.guard := (recompute_carried p).guard
theorem recompute_slots (p : Part) : (recompute p).slots = p.slots := (recompute_carried p).slots
theorem recompute_bellOwner (p : Part) (b : BellIx) : (recompute p).bellOwner.read b = bellClaim p.slots b := by
  rw [(recompute_carried p).bellOwner]; exact Bank.read_ofFn _ _
theorem recompute_figOwner (p : Part) (k : FigIx) : (recompute p).figOwner.read k = figureClaim p.slots k := by
  rw [(recompute_carried p).figOwner]; exact Bank.read_ofFn _ _

end Sys2Proof.Machine
end

