-- ==== Sys2Proof/Laws/Requests.lean ====
section
/-! SUPPORT. How a command that waits at the head of an intake queue is taken, said once for all requests. -/

namespace Sys2Proof.Machine

/-- A command's body runs on the part while it is running. -/
theorem run_running (f : Part → Part) (s : State) (h : s.part.phase = .running) :
    s.run (whenRunning f) = .next (s.withPart (f s.part)) := by
  rw [State.run_eq, whenRunning_running f s.part h]
  rfl

/-- R126: in a reset it changes nothing. -/
theorem run_reset (f : Part → Part) (s : State) (h : s.part.phase ≠ .running) : s.run (whenRunning f) = .next s := by
  rw [State.run_eq, whenRunning_reset f s.part h]

theorem withPart_part (s : State) (p : Part) : (s.withPart p).part = p := rfl
theorem withPart_pending (s : State) (p : Part) : (s.withPart p).pending = s.pending := rfl
theorem withPart_self (s : State) : s.withPart s.part = s := rfl

/-- R162: an entry that the step takes is removed and carried out. -/
theorem takeManagement_head (takes : Frame → Bool) (body : IntakeEntry → Part → Part) (p : Part) (e : IntakeEntry)
    (rest : List IntakeEntry) (h : p.filter.management.entries = e :: rest) (ht : takes e.frame = true) :
    takeManagement takes body p = body e (setManagement rest p) := by
  simp [takeManagement, h, ht]

/-- R162, cases 4 and 5: a request of a suitable length is judged by its body. -/
theorem onRequest_waiting (r : Request) (body : IntakeEntry → Part → Part) (s : State) (e : IntakeEntry)
    (rest : List IntakeEntry) (h : Waiting r e rest s) :
    s.run (whenRunning (onRequest r body)) = .next (s.withPart (body e (setManagement rest s.part))) := by
  obtain ⟨hr, he, hq, hl⟩ := h
  rw [run_running _ _ hr, onRequest, takeManagement_head _ _ _ e rest he (by simpa using hq), if_pos hl]

/-- R162, case 3: a request of another length is answered LENGTH. -/
theorem onRequest_wrongLength (r : Request) (body : IntakeEntry → Part → Part) (s : State) (e : IntakeEntry)
    (rest : List IntakeEntry) (hr : s.part.phase = .running) (he : s.part.filter.management.entries = e :: rest)
    (hq : e.frame.request = some r) (hl : r.lengthSuits e.frame.payload.length = false) :
    s.run (whenRunning (onRequest r body)) = .next (s.withPart (answer e .length [] (setManagement rest s.part))) := by
  rw [run_running _ _ hr, onRequest, takeManagement_head _ _ _ e rest he (by simpa using hq)]
  simp [hl]

/-- R19: a TIMER CONTROL request for the step's own action and a timer of the eight. -/
theorem onTimerControl_waiting (a : Nat) (body : IntakeEntry → TimerIx → Part → Part) (s : State) (e : IntakeEntry)
    (rest : List IntakeEntry) (t : TimerIx) (h : Waiting .timerControl e rest s) (ht : e.frame.arg 1 = t.val)
    (ha : e.frame.arg 2 = a) :
    s.run (whenRunning (onTimerControl a body)) = .next (s.withPart (body e t (setManagement rest s.part))) := by
  obtain ⟨hr, he, hq, hl⟩ := h
  rw [run_running _ _ hr, onTimerControl, takeManagement_head _ _ _ e rest he (by simp [hq, ha]), if_pos hl, ht]
  simp [index?, ha]

/-- R19: a timer above 7 is refused with RANGE by the step of any action. -/
theorem onTimerControl_noTimer (a : Nat) (body : IntakeEntry → TimerIx → Part → Part) (s : State) (e : IntakeEntry)
    (rest : List IntakeEntry) (h : Waiting .timerControl e rest s) (ht : 8 ≤ e.frame.arg 1) (ha : e.frame.arg 2 = a) :
    s.run (whenRunning (onTimerControl a body)) = .next (s.withPart (answer e .range [] (setManagement rest s.part))) := by
  obtain ⟨hr, he, hq, hl⟩ := h
  have : ¬ e.frame.arg 1 < 8 := by omega
  rw [run_running _ _ hr, onTimerControl, takeManagement_head _ _ _ e rest he (by simp [hq, ha]), if_pos hl]
  simp [index?, this]

/-! ## Parameters -/

theorem index?_val {n : Nat} (k : Fin n) : index? n k.val = some k := by simp [index?]

theorem index?_beyond {n k : Nat} (h : n ≤ k) : index? n k = none := by
  simp only [index?, dif_neg (show ¬ k < n by omega)]

/-- A parameter read as bytes is the number its bytes spell. -/
theorem number_two (f : Frame) (k : Nat) (h : k + 2 ≤ f.payload.length) :
    f.number k 2 = f.arg k * 256 + f.arg (k + 1) := by
  have e : (f.payload.drop k).take 2 = [f.payload.getD k 0, f.payload.getD (k + 1) 0] := by
    apply List.ext_getElem
    · simp; omega
    · intro i h1 h2
      simp only [List.length_cons, List.length_nil] at h2
      match i, h2 with
      | 0, _ => simp [List.getD_eq_getElem?_getD, show k < f.payload.length by omega]
      | 1, _ => simp [List.getD_eq_getElem?_getD, show k + 1 < f.payload.length by omega]
  simp [Frame.number, e, numberOf, Frame.arg]

theorem number_three (f : Frame) (k : Nat) (h : k + 3 ≤ f.payload.length) :
    f.number k 3 = (f.arg k * 256 + f.arg (k + 1)) * 256 + f.arg (k + 2) := by
  have e : (f.payload.drop k).take 3 = [f.payload.getD k 0, f.payload.getD (k + 1) 0, f.payload.getD (k + 2) 0] := by
    apply List.ext_getElem
    · simp; omega
    · intro i h1 h2
      simp only [List.length_cons, List.length_nil] at h2
      match i, h2 with
      | 0, _ => simp [List.getD_eq_getElem?_getD, show k < f.payload.length by omega]
      | 1, _ => simp [List.getD_eq_getElem?_getD, show k + 1 < f.payload.length by omega]
      | 2, _ => simp [List.getD_eq_getElem?_getD, show k + 2 < f.payload.length by omega]
  simp [Frame.number, e, numberOf, Frame.arg]

theorem number_four (f : Frame) (k : Nat) (h : k + 4 ≤ f.payload.length) :
    f.number k 4 = ((f.arg k * 256 + f.arg (k + 1)) * 256 + f.arg (k + 2)) * 256 + f.arg (k + 3) := by
  have e : (f.payload.drop k).take 4 =
      [f.payload.getD k 0, f.payload.getD (k + 1) 0, f.payload.getD (k + 2) 0, f.payload.getD (k + 3) 0] := by
    apply List.ext_getElem
    · simp; omega
    · intro i h1 h2
      simp only [List.length_cons, List.length_nil] at h2
      match i, h2 with
      | 0, _ => simp [List.getD_eq_getElem?_getD, show k < f.payload.length by omega]
      | 1, _ => simp [List.getD_eq_getElem?_getD, show k + 1 < f.payload.length by omega]
      | 2, _ => simp [List.getD_eq_getElem?_getD, show k + 2 < f.payload.length by omega]
      | 3, _ => simp [List.getD_eq_getElem?_getD, show k + 3 < f.payload.length by omega]
  simp [Frame.number, e, numberOf, Frame.arg]

end Sys2Proof.Machine
end

