-- ==== Sys2Proof/Laws/Table.lean ====
section
/-! SUPPORT. Table memory: what a write does to the words, that every memory operation keeps the canonical
form, and what reads of undisturbed words give. -/

namespace Sys2Proof.Machine

/-! ## One word -/

theorem wordAt_below (n a : Nat) (t : List (Nat × StoredWord)) (h : wordsFrom n t = true) (ha : a < n) :
    wordAt t a = StoredWord.blank := by
  induction t generalizing n with
  | nil => rfl
  | cons x rest ih =>
    obtain ⟨b, w⟩ := x
    simp only [wordsFrom, Bool.and_eq_true, decide_eq_true_eq] at h
    rw [wordAt, if_neg (by omega)]
    exact ih (b + 1) h.2 (by omega)

/-- R151, R153: the word written reads as written, and every other word as before. -/
theorem wordAt_putWord (n a c : Nat) (w : StoredWord) (t : List (Nat × StoredWord)) (h : wordsFrom n t = true) :
    wordAt (putWord a w t) c = if c = a then w else wordAt t c := by
  induction t generalizing n with
  | nil =>
    simp only [putWord]
    split
    · next e => subst e; split <;> rfl
    · rfl
  | cons x rest ih =>
    obtain ⟨b, v⟩ := x
    have h' := h
    simp only [wordsFrom, Bool.and_eq_true, decide_eq_true_eq] at h
    rw [putWord]
    split
    · next hab =>
      split
      · next e =>
        subst e
        split
        · next hc => subst hc; rw [wordAt, if_neg (by omega)]; exact wordAt_below (b + 1) _ _ h.2 (by omega)
        · rfl
      · rfl
    · split
      · next hab =>
        subst hab
        split
        · next e =>
          subst e
          split
          · next hc => subst hc; exact wordAt_below (c + 1) _ _ h.2 (by omega)
          · next hc => rw [wordAt, if_neg hc]
        · simp only [wordAt]; split <;> rfl
      · next hne =>
        simp only [wordAt]
        rw [ih (b + 1) h.2]
        split
        · next hc => subst hc; rw [if_neg (by omega)]
        · rfl

theorem wordsFrom_weaken (m n : Nat) (t : List (Nat × StoredWord)) (h : wordsFrom n t = true) (hm : m ≤ n) :
    wordsFrom m t = true := by
  cases t with
  | nil => rfl
  | cons x rest =>
    simp only [wordsFrom, Bool.and_eq_true, decide_eq_true_eq] at h ⊢
    exact ⟨⟨⟨by omega, h.1.1.2⟩, h.1.2⟩, h.2⟩

/-- A write within table memory keeps the canonical form. -/
theorem wordsFrom_putWord (n a : Nat) (w : StoredWord) (t : List (Nat × StoredWord)) (h : wordsFrom n t = true)
    (hn : n ≤ a) (ha : a ≤ lastTableWord) : wordsFrom n (putWord a w t) = true := by
  induction t generalizing n with
  | nil =>
    simp only [putWord]
    split
    · rfl
    · next hw => simp [wordsFrom, hn, ha, hw]
  | cons x rest ih =>
    obtain ⟨b, v⟩ := x
    have h' := h
    simp only [wordsFrom, Bool.and_eq_true, decide_eq_true_eq] at h
    obtain ⟨⟨⟨hb, hl⟩, hv⟩, hr⟩ := h
    rw [putWord]
    split
    · next hab =>
      split
      · exact h'
      · next hw => simp [wordsFrom, hn, ha, hw, hl, hv, hr]; omega
    · split
      · next hab =>
        subst hab
        split
        · exact wordsFrom_weaken n (a + 1) rest hr (by omega)
        · next hw => simp [wordsFrom, hn, ha, hw, hr]
      · next hne =>
        have := ih (b + 1) hr (by omega)
        simp [wordsFrom, hb, hl, hv, this]

/-! ## Several words -/

theorem wordsFrom_writeWords (a : Nat) (ws : List Word) (t : List (Nat × StoredWord)) (h : wordsFrom 0 t = true)
    (ha : a + ws.length ≤ lastTableWord + 1) : wordsFrom 0 (writeWords a ws t) = true := by
  induction ws generalizing a t with
  | nil => exact h
  | cons w rest ih =>
    simp only [List.length_cons] at ha
    exact ih (a + 1) _ (wordsFrom_putWord 0 a _ t h (by omega) (by omega)) (by omega)

/-- R153: the words written, and every other word as before. -/
theorem wordAt_writeWords (a c : Nat) (ws : List Word) (t : List (Nat × StoredWord)) (h : wordsFrom 0 t = true)
    (ha : a + ws.length ≤ lastTableWord + 1) :
    wordAt (writeWords a ws t) c =
      if a ≤ c ∧ c < a + ws.length then { data := ws.getD (c - a) 0, flips := 0 } else wordAt t c := by
  induction ws generalizing a t with
  | nil =>
    rw [if_neg (by simp only [List.length_nil]; omega)]
    rfl
  | cons w rest ih =>
    simp only [List.length_cons] at ha ⊢
    rw [writeWords, ih (a + 1) _ (wordsFrom_putWord 0 a _ t h (by omega) (by omega)) (by omega), wordAt_putWord 0 _ _ _ _ h]
    by_cases e : c = a
    · subst e; simp
    · rw [if_neg e]
      by_cases hc : a ≤ c
      · obtain ⟨d, rfl⟩ : ∃ d, c = a + 1 + d := ⟨c - (a + 1), by omega⟩
        have h1 : a + 1 + d - a = d + 1 := by omega
        have h2 : a + 1 + d - (a + 1) = d := by omega
        rw [h1, h2, List.getD_cons_succ]
        congr 1
        apply propext
        constructor <;> intro <;> omega
      · rw [if_neg (by omega), if_neg (by omega)]

/-- Every memory operation keeps the canonical form: reads and causes keep the words, a write puts words within
table memory, and the part starts with none listed. -/
theorem Noted.wf {p q : Part} (h : Noted p q) (hp : p.table.wf = true) : q.table.wf = true := by
  rw [Table.wf, h.words]; exact hp

theorem writeTable_wf (base : Nat) (ws : List Word) (p : Part) (hp : p.table.wf = true)
    (h : withinTable base ws.length = true) : (writeTable base ws p).table.wf = true :=
  wordsFrom_writeWords base ws p.table.words hp (by simpa [withinTable] using h)

theorem reset_table_wf : State.reset.part.table.wf = true := rfl

/-! ## Undisturbed words -/

theorem disturbed_none (w : StoredWord) (h : w.flips = 0) : w.disturbed = [] := by
  simp [StoredWord.disturbed, h]

theorem judged_clean (w : StoredWord) (h : w.flips = 0) : w.judged = .clean := by
  simp [StoredWord.judged, disturbed_none w h]

theorem storedData_clean (w : StoredWord) (h : w.flips = 0) : w.storedData = w.data := by
  simp [StoredWord.storedData, h]

/-- R154: a read of an undisturbed word gives its data and leaves no trace. -/
theorem readWord_clean (rd : Reader) (a : Nat) (p : Part) (h : p.table.clean) (ha : a ≤ lastTableWord) :
    readWord rd a p = (some (wordAt p.table.words a).data, p) := by
  unfold readWord
  rw [if_neg (by omega)]
  simp [judged_clean _ (h a), storedData_clean _ (h a)]

theorem readEach_clean (rd : Reader) (as : List Nat) (p : Part) (h : p.table.clean) (ha : ∀ a ∈ as, a ≤ lastTableWord) :
    readEach rd as p = (as.map fun a => some (wordAt p.table.words a).data, p) := by
  induction as with
  | nil => rfl
  | cons a rest ih =>
    simp only [readEach, readWord_clean rd a p h (ha a (by simp)), List.map_cons]
    rw [ih fun b hb => ha b (by simp [hb])]

theorem allOf_map_some {α : Type} (f : α → Word) (as : List α) : allOf (as.map fun a => some (f a)) = some (as.map f) := by
  induction as with
  | nil => rfl
  | cons a rest ih => simp [allOf, ih]

/-- The words a record read gives: the data at each offset read, zero at any other. -/
def recordWords (p : Part) (base : Nat) (offsets : List Nat) (k : Nat) : Word :=
  if k ∈ offsets then (wordAt p.table.words (base + k)).data else 0

theorem lookup_zip_map (f : Nat → Word) (offsets : List Nat) (k : Nat) :
    ((offsets.zip (offsets.map f)).lookup k).getD 0 = if k ∈ offsets then f k else 0 := by
  induction offsets with
  | nil => rfl
  | cons o rest ih =>
    simp only [List.map_cons, List.zip_cons_cons, List.lookup_cons, List.mem_cons]
    by_cases e : k = o
    · subst e; simp
    · have : (k == o) = false := by simpa using e
      simp only [this, e, false_or]
      exact ih

theorem readRecord_clean (rd : Reader) (base : Nat) (offsets : List Nat) (p : Part) (h : p.table.clean)
    (ho : ∀ k ∈ offsets, base + k ≤ lastTableWord) :
    readRecord rd base offsets p = (some (recordWords p base offsets), p) := by
  unfold readRecord
  rw [readEach_clean rd _ p h (by simpa using ho)]
  simp only [List.map_map, Function.comp_def, allOf_map_some, Option.map_some]
  congr 2
  funext k
  exact lookup_zip_map (fun k => (wordAt p.table.words (base + k)).data) offsets k

end Sys2Proof.Machine
end

