-- ==== Sys2Proof/Tests/Slice0.lean ====
section
/-! SUPPORT. Tests: values worked out in the manual, the checks of WellFormed, and for every statement with
hypotheses a state and operands that meet them together (`test_meets_…`). Each is one step, or none, on a small
state. -/

namespace Sys2Proof.Tests

open Sys2Proof Sys2Proof.Machine

-- One theorem at a time: each is a kernel evaluation, and many at once take more threads than memory allows.
set_option Elab.async false

/-! ## Small states -/

/-- An intake entry of source 1 with tag 7. -/
def entry (kind : Byte) (payload : List Byte) : IntakeEntry :=
  { frame := { dest := 120, source := 1, kind := kind, tag := 7, payload := payload }, stamp := 0, hit := 0 }

/-- A REQUEST with this payload. -/
def ask (payload : List Byte) : IntakeEntry := entry Kind.request payload

/-- A part with these words written to its table. -/
def stored (words : List (Nat × Word)) (p : Part) : Part := words.foldl (fun q w => writeTable w.1 [w.2] q) p

/-- A part with one request waiting. -/
def asking (payload : List Byte) (p : Part) : State := ⟨setManagement [ask payload] p, []⟩

/-- The part after a command. -/
def after (c : Instr) (s : State) : Part :=
  match exec c s with
  | .next t => t.part
  | .fault _ => s.part
  | .refused _ => s.part

/-- The payload of the frame last appended to OQ-REPORT. -/
def reply (p : Part) : List Byte := (p.out.report.getLast?.map Frame.payload).getD []

/-- The payload of the frame on the downline wire. -/
def onWire (p : Part) : List Byte :=
  match p.down.tx with
  | .sending x => x.frame.payload
  | .ready => []
  | .spacing => []

/-- The part at a line time. -/
def atTime (n : Nat) (p : Part) : Part := { p with lineTime := n }

def start : Part := Part.initial
def state (p : Part) : State := ⟨p, []⟩

/-- A clock that is SET to the time that lies this many milliseconds into its span. -/
def clockAt (n : Nat) (stamp : Option DateTime) (p : Part) : Part :=
  setCal (fun c => { c with clockState := .set, clock := timeOfMillis n, stamp := stamp }) p

/-- Line `n` of a class, with a run of 10 differing samples and this taken level; its active level is low. -/
def tripped (n : LineIx) (cls : GuardClass) (high : Bool) (p : Part) : Part :=
  setLine n (fun l => { l with
    taken := high, run := 10
    config := { l.config with cls := cls, zones := 0x04, autoResume := true } })
    { p with guard := { p.guard with awaitingSample := false } }

/-- Slot 0 runs a show of 1,000 ms, once, from line time 0. -/
def running (p : Part) : Part :=
  setSlot 0 (fun x => { x with state := .running, reps := 1, copy := { x.copy with duration := 1000, bells := 0x80 } }) p

/-- A figure in a state. -/
def figured (k : FigIx) (x : FigureState) (p : Part) : Part := setFigure k (fun g => { g with state := x }) p

/-! ## WellFormed -/

theorem test_frame_of_33_is_ill_formed :
    (Instr.frameReceived .upline ⟨0, 0, 0, 0, List.replicate 33 0⟩ 0).wellFormed = false := by decide

theorem test_frame_of_32_is_well_formed :
    (Instr.frameReceived .upline ⟨0, 0, 0, 0, List.replicate 32 0⟩ 0).wellFormed = true := by decide

theorem test_length_of_32_is_not_above_32 : (Instr.lengthAbove32 .upline 32).wellFormed = false := by decide

theorem test_no_row_gives_bits : decodeTableWord 8 0 = none := by decide

/-! ## Values worked out in the manual -/

/-- Chapter 01, a small correction: 1,450 ms become the slew remainder, and the clock still reads as before. -/
theorem test_small_correction_is_slewed :
    let s := state (setCalendarIntake (fun q => { q with entries := [entry Kind.time [0x07, 0xD0, 1, 1, 10, 14, 6, 0x02, 0x8A]] })
      (clockAt 36845200 none start))
    (after .timeFrameTaken s).cal.slew = 1450 ∧ (after .timeFrameTaken s).cal.clock = s.part.cal.clock := by
  decide +kernel

/-- Chapter 01, a step back: 150,000 ms, event 21, the stamp kept. -/
theorem test_step_back_keeps_the_stamp :
    let stamp := some (timeOfMillis 52200000)
    let s := state (setCalendarIntake (fun q => { q with entries := [entry Kind.time [0x07, 0xD0, 1, 1, 14, 27, 50, 0, 0]] })
      (clockAt 52220000 stamp start))
    (after .timeFrameTaken s).cal.stamp = stamp ∧ member (after .timeFrameTaken s).events.latches 21 = true ∧
      (after .timeFrameTaken s).cal.clock = timeOfMillis 52070000 := by
  decide +kernel

/-- Chapter 04, bell 7: its record. -/
def bellSeven (p : Part) : Part :=
  stored [(92, 0x0E030C1E), (93, 0x1E780096), (94, 0x04062710), (95, 0xFF000000)] p

/-- Chapter 04, bell 7: the note at 1,205,000 fires at 1,204,974. -/
theorem test_bell_seven_note_is_placed :
    (placeNote 0 7 (bellRecord fun k => [(0x0E030C1E : Word), 0x1E780096, 0x04062710, 0xFF000000].getD k 0) 64 1205000
      (atTime 1204600 start)).strikes.queue = [{ slot := 0, bell := 7, velocity := 64, fire := 1204974 }] := by
  decide +kernel

/-- Bell 7's strike waits in OQ-STRIKE, its bell at a heat. -/
def bellSevenWaits (now heat : Nat) : State :=
  state (atTime now (setBell 7 (fun b => { b with heat := heat })
    (setOut (fun o => { o with strike := [{ bell := 7, velocity := 64, fire := 1204974 }] }) (bellSeven start))))

/-- Chapter 04, bell 7: channel 3, delay 5, width 75, velocity 64, bell 7; heat 10,000. -/
theorem test_bell_seven_is_struck :
    onWire (after .downlineTransmitStart (bellSevenWaits 1204969 9700)) = [3, 5, 75, 64, 7] ∧
      ((after .downlineTransmitStart (bellSevenWaits 1204969 9700)).strikes.bells.read 7).heat = 10000 := by decide +kernel

/-- Chapter 04, bell 7: degraded to width 60 from a heat of 9,760; withheld from 9,900; late at 1,204,980. -/
theorem test_bell_seven_is_degraded_withheld_or_late :
    onWire (after .downlineTransmitStart (bellSevenWaits 1204969 9760)) = [3, 5, 60, 64, 7] ∧
      (after .downlineTransmitStart (bellSevenWaits 1204969 9900)).counts.hot = 1 ∧
      (after .downlineTransmitStart (bellSevenWaits 1204980 0)).counts.late = 1 := by decide +kernel

/-- Chapter 04, bell 7: from 10,000 a cooling tick leaves 9,844. -/
theorem test_bell_seven_cools :
    ((after .coolingTick (state (atTime 1204970 (setBell 7 (fun b => { b with heat := 10000 }) (bellSeven start))))).strikes.bells.read 7).heat =
      9844 := by decide +kernel

/-- Chapter 05, a mirrored twin: figure 4 goes from −120 to −140 with the lag flag set and source 30 latched. -/
theorem test_mirrored_twin_is_step_limited :
    let item : FigureItem := { figure := 3, path := 2000, offset := 0 }
    let p := stored [(288, 0x01040003), (289, 0x01000064), (290, 0xFE0C07D0), (291, 0x001403E8), (292, 0x01F40000),
      (2000, 0x02000000), (2001, 0), (2002, 0x07D003E8)] start
    let p := setSlot 0 (fun x => { x with state := .running, copy := { x.copy with duration := 5000, items := [item] } }) (atTime 700 p)
    let p := setFigure 4 (fun g => { g with
      state := .driven, owner := some 0, drive := some { item := 0, role := .twin }, setpoint := -120, silence := some 700 }) p
    let q := after .motionPeriod (state p)
    (q.figures.read 4).setpoint = -140 ∧ (q.figures.read 4).lag = true ∧ member q.events.latches 30 = true ∧
      q.out.motion.map (fun m => m.frame.payload) = [[4, 0xFF, 0x74, 1]] := by decide +kernel

/-- Chapter 09, a flush in POLLED mode: four removed, mark 0. -/
theorem test_flush_in_polled_mode :
    let f : Frame := ⟨0, 120, Kind.attention, 17, []⟩
    let s := asking [21, 4] (setOut (fun o => { o with report := [f, f, f, f], mode := .polled, mark := 1 }) start)
    (after .queueFlush s).out.report.map Frame.payload = [[21, 0, 4, 4]] ∧ (after .queueFlush s).out.mark = 0 := by
  decide +kernel

/-- Chapter 11, verifying the fanfare: 35 words read, one uncorrectable, one fault, at word 2002. -/
theorem test_verifying_the_fanfare :
    let p := stored [(736, 0x01020200), (737, 0x00000640), (738, 0x07D00384), (740, 0x000E0000),
      (2000, 0x04020008), (2001, 0x00FA0004), (2002, 0x0102033C)] start
    let p := { p with table := { p.table with words := putWord 2006 ⟨0, 0x5⟩ p.table.words } }
    let v := (after .verifySweep (state (after .verifyShow (asking [12, 6] p)))).verify.result
    v.state = .done ∧ v.valid = some true ∧ v.wordsRead = 35 ∧ v.uncorrectable = 1 ∧ v.faults = 1 ∧
      v.first = some (.bellAbove47, 2002) := by decide +kernel

/-- Chapter 02, the hour count at three o'clock: three repetitions; at noon and at midnight twelve. -/
theorem test_hour_count :
    let c := { ShowCopy.initial with repeatMode := .hourCount }
    repetitions c (some 15) = some 3 ∧ repetitions c (some 12) = some 12 ∧ repetitions c (some 0) = some 12 ∧
      repetitions c none = none := by decide

/-- R154 and its table: a data bit and a check bit put right. -/
theorem test_one_bit_is_corrected :
    (readWord .record 64 { start with table := { start.table with words := [(64, ⟨0x0E030C1E, 0x4⟩)] } }).1 = some 0x0E030C1E ∧
      (readWord .record 64 { start with table := { start.table with words := [(64, ⟨0x0E030C1E, 0x4000000000⟩)] } }).1 =
        some 0x0E030C1E := by decide +kernel

/-! ## The hypotheses of the statements are met -/

theorem test_meets_EmptyQueueTakesWhatIsDueOrAMillisecond :
    let p := { start with events := { start.events with stop := { start.events.stop with pulseEnd := some 0 } } }
    dueCommands p = [.pulseEnd .stop] ∧ dueCommands start = [] ∧ start.phase = .running := by decide +kernel

theorem test_meets_InResetOtherCommandsChangeNothing :
    ∃ (c : Instr) (s : State), s.part.phase ≠ .running ∧ c ≠ .powerOnReset ∧ c ≠ .lineBreakReset ∧ c ≠ .lbrEnd ∧
      c ≠ .softResetEnd ∧ c ≠ .clockAdvance ∧ (∀ w, c ≠ .frameSent w) ∧ ∀ w, c ≠ .spacingEnd w :=
  ⟨.coolingTick, state { start with phase := .lineBreak }, by decide, by decide, by decide, by decide, by decide, by decide,
    fun w => by cases w <;> decide, fun w => by cases w <;> decide⟩

theorem test_meets_ResetsBegin :
    Waiting .softReset (ask [22]) [] (asking [22] start) ∧ (state { start with phase := .lineBreak }).part.phase = .lineBreak := by decide +kernel

theorem test_meets_LeavingAResetKeepsTheTablesAndTheClock :
    (state { start with phase := .lineBreak }).part.phase = .lineBreak ∧
      (state { start with phase := .softReset, resetHold := 1 }).part.phase = .softReset ∧
      transmittersDone { start with phase := .softReset, resetHold := 1 } = true ∧
      ({ start with phase := .softReset } : Part).resetHold = 0 ∧
      transmittersDone { start with phase := .softReset, up := { start.up with tx := .sending ⟨⟨0, 0, 0, 0, []⟩, 0⟩ } } = false := by decide +kernel

/-- A part whose upline receiver is READY. -/
def listening : Part := { start with up := { start.up with rx := { start.up.rx with state := .ready } } }

/-- A frame of no kind that a default filter matches, and one that filter 0 matches, and a POLL. -/
def stray : Frame := ⟨1, 0, 0x30, 5, []⟩
def polled : Frame := ⟨120, 0, Kind.poll, 5, []⟩
def requested : Frame := ⟨120, 0, Kind.request, 5, [16]⟩

theorem test_meets_UnmatchedFrameIsForwardedOrDropped :
    let full := setOut (fun o => { o with passDn := List.replicate 32 ⟨stray, 0⟩ }) listening
    Arriving .upline stray (state listening) ∧ frameCheck stray ≠ 0 ∧ matching .upline stray listening = [] ∧
      (passQueue .upline listening.out).length < 32 ∧ Arriving .upline stray (state full) ∧
      matching .upline stray full = [] ∧ 32 ≤ (passQueue .upline full.out).length := by decide +kernel

theorem test_meets_WinningFilterDelivers :
    let p := setOut (fun o => { o with mode := .polled, report := [stray] }) listening
    let empty := setOut (fun o => { o with mode := .polled }) listening
    let packed := setOut (fun o => { o with report := List.replicate 16 stray }) listening
    let full := setManagement (List.replicate 8 (ask [16])) listening
    let told : Frame := ⟨127, 0, Kind.time, 5, []⟩
    let fits := fun (i : FilterIx) f => (p.filter.filters.read i).matchesFrame p.filter.masks p.settings.ownAddress .upline f
    Arriving .upline requested (state p) ∧ fits 0 requested = true ∧ (p.filter.filters.read 0).action = .management ∧
      canAccept .management p.filter = true ∧ (p.filter.filters.read 0).forward = false ∧
      Arriving .upline told (state p) ∧ fits 2 told = true ∧ fits 0 told = false ∧ fits 1 told = false ∧
      (p.filter.filters.read 2).forward = true ∧ canAccept .calendar p.filter = true ∧
      Arriving .upline polled (state p) ∧ fits 1 polled = true ∧ fits 0 polled = false ∧
      (p.filter.filters.read 1).action = .poll ∧ (p.filter.filters.read 1).forward = false ∧ p.out.report ≠ [] ∧
      Arriving .upline polled (state empty) ∧ empty.out.report = [] ∧ Arriving .upline polled (state listening) ∧
      listening.out.mode = .free ∧ Arriving .upline polled (state packed) ∧ 16 ≤ packed.out.report.length ∧
      Arriving .upline requested (state full) ∧ canAccept .management full.filter = false ∧
      (∀ j : FilterIx, j ≠ 0 → fits j requested = false) := by decide +kernel

theorem test_a_full_intake_queue_overflows_and_polls_are_answered :
    let full := setManagement (List.replicate 8 (ask [16])) listening
    (after (.frameReceived .upline requested (frameCheck requested)) (state full)).filter.management.overflow = 1 ∧
      member (after (.frameReceived .upline requested (frameCheck requested)) (state full)).events.latches 27 = true ∧
      (after (.frameReceived .upline polled (frameCheck polled)) (state listening)).out.report.map Frame.kind = [Kind.quiet] := by decide +kernel

theorem test_meets_ReceiveErrorsAreCountedOnce :
    let hunting := { start with up := { start.up with rx := { state := .hunt, runOn := true, inBreak := false } } }
    listening.phase = .running ∧ (portOf .upline listening).rx.takesFrame = true ∧ 32 < (33 : Byte).toNat ∧
      (portOf .upline hunting).rx.runOn = true ∧ (portOf .upline start).rx.state = .hunt ∧
      (portOf .upline start).rx.runOn = false ∧ (portOf .upline start).rx.inBreak = false := by decide +kernel

theorem test_meets_DownlineBreakLatchesOnce :
    start.down.rx.inBreak = false ∧ (after .downlineBreak (state start)).down.rx.inBreak = true := by decide +kernel

theorem test_meets_UplineSendsTheReportOrThePassedFrame :
    let p := setOut (fun o => { o with report := [stray], mode := .polled, mark := 1, passUp := [⟨stray, 0⟩] }) start
    let q := setOut (fun o => { o with mark := 0 }) p
    p.phase = .running ∧ p.up.tx = .ready ∧ p.out.report = [stray] ∧ 1 ≤ p.out.mark ∧
      p.out.levels.passUp ≤ p.out.levels.report ∧ q.out.passUp = [⟨stray, 0⟩] ∧ q.out.mode = .polled ∧ q.out.mark = 0 := by decide +kernel

theorem test_meets_GuardFramesGoFirstAndFramesAreSpaced :
    let p := setOut (fun o => { o with guard := [stray] }) start
    let m := setOut (fun o => { o with motion := [⟨3, stray⟩] }) start
    let d := setOut (fun o => { o with passDn := [⟨stray, 0⟩] }) start
    p.phase = .running ∧ p.down.tx = .ready ∧ p.out.guard = [stray] ∧ m.out.guard = [] ∧ m.out.strike = [] ∧
      m.out.motion = [⟨3, stray⟩] ∧ m.out.passDn = [] ∧ d.out.strike = [] ∧ d.out.motion = [] ∧
      d.out.passDn = [⟨stray, 0⟩] ∧ (portOf .downline (after .downlineTransmitStart (state p))).tx ≠ .ready ∧
      (portOf .downline (after (.frameSent .downline) (state (after .downlineTransmitStart (state p))))).tx = .spacing := by decide +kernel

/-- The part after bell 7's strike has left OQ-STRIKE. -/
def bellSevenTaken (now heat : Nat) : Part := setOut (fun o => { o with strike := [] }) (bellSevenWaits now heat).part

theorem test_meets_HammerIsCompletedAtItsTransmitStart :
    let s := bellSevenWaits 1204969 9760
    let e : StrikeFrame := { bell := 7, velocity := 64, fire := 1204974 }
    let bad := { bellSevenTaken 1204969 0 with table := { start.table with words := [(92, ⟨0, 0x3⟩)] } }
    s.part.phase = .running ∧ s.part.down.tx = .ready ∧ s.part.out.guard = [] ∧ s.part.out.strike = [e] ∧
      s.part.out.motion = [] ∧ s.part.out.passDn = [] ∧ (completeStrike e (bellSevenTaken 1204980 0)).1 = none ∧
      ((readBell 7 [0, 1, 2] (bellSevenTaken 1204969 9760)).1.map fun r =>
        (r.node, r.pulseMin, (r.heatLimit - 9760) / r.unitHeat)) = some (14, 30, 60) ∧
      ((readBell 7 [0, 1, 2] (bellSevenTaken 1204969 9900)).1.map fun r =>
        (r.pulseMin, (r.heatLimit - 9900) / r.unitHeat)) = some (30, 25) ∧
      ((readBell 7 [0, 1, 2] (bellSevenTaken 1204980 0)).1.isSome = true) ∧
      ((readBell 8 [0, 1, 2] (bellSevenTaken 1204969 0)).1.map BellRecord.node) = some 0 ∧
      (readBell 7 [0, 1, 2] bad).1 = none := by decide +kernel

theorem test_meets_QueueFlushEmptiesOneQueue :
    Waiting .queueFlush (ask [21, 6]) [] (asking [21, 6] start) ∧ 5 < (ask [21, 6]).frame.arg 1 ∧
      figuresMoving (asking [21, 2] (figured 0 .driven start)).part = true ∧
      Waiting .queueFlush (ask [21, 2]) [] (asking [21, 2] (figured 0 .driven start)) ∧
      Waiting .queueFlush (ask [21, 5]) [] (asking [21, 5] start) ∧ QueueName.ofCode 5 = some .passUp := by decide +kernel

theorem test_meets_ClockAdvancesByTheSlew :
    let p := setCal (fun c => { c with slew := 5 }) (clockAt 36845200 none start)
    let q := setCal (fun c => { c with slew := -5 }) p
    p.cal.clock.possible = true ∧ p.cal.clockState = .set ∧ p.cal.clock.millis + 2 ≤ lastMillis ∧ slewDue p = true ∧
      q.cal.slew < 0 ∧ slewDue (atTime 50 p) = false ∧ start.cal.clock.possible = true ∧ start.cal.clockState = .unset := by decide +kernel

/-- A part that holds show 31: valid, once, 1,600 ms, no barrel and no figures. -/
def showHeld : Part := stored [(1136, 0x01000100), (1137, 0x00000640), (1139, 0x00000000), (1140, 0x00800000)] start

/-- As `showHeld`, but show 31 is an HOUR COUNT. -/
def countHeld : Part := stored [(1136, 0x01010100)] showHeld

def passes (r : Except Result CheckedShow) : Bool :=
  match r with
  | .ok _ => true
  | .error _ => false

/-- A calendar entry for this minute of every hour of every day: slot 0, show 31, season rank 1. -/
def everyHour (minute : Word) : List (Nat × Word) :=
  [(384, 0x0101010C), (385, 0x1F7F0000 + 256 * minute), (386, 0xFFFFFF1F), (387, 0x01000000)]

/-- The calendar's request for show 31 in slot 0, with a season rank. -/
def request (rank : Nat) : StartRequest :=
  { slot := 0, showIx := 31, source := .calendar, rank := rank, hour := some 0, trigger := 0 }

/-- Slot 0 runs a calendar show of season rank 1. -/
def calendarRuns (p : Part) : Part := setSlot 0 (fun x => { x with source := .calendar, rank := 1 }) (running p)

theorem test_meets_MinuteBoundarySetsTheStamp :
    let p := clockAt 36845200 (some (timeOfMillis 36780000)) start
    let lost := stored [(1136, 0)] showHeld
    boundaryPassed p = true ∧ p.phase = .running ∧ start.cal.clockState = .unset ∧ boundaryPassed start = false ∧
      allStopAsserted (tripped 0 .allStop false showHeld) = true ∧ allStopAsserted showHeld = false ∧
      (showHeld.slots.read 0).state = .idle ∧ passes (checkShow 31 showHeld).1 = true ∧
      passes (checkShow 31 lost).1 = false ∧ passes (checkShow 31 countHeld).1 = true ∧
      repetitions ShowCopy.initial (some 0) = some 1 ∧ ((calendarRuns showHeld).slots.read 0).state ≠ .idle ∧
      ((calendarRuns showHeld).slots.read 0).source = .calendar ∧ ((calendarRuns showHeld).slots.read 0).rank = 1 := by decide +kernel

theorem test_a_minute_starts_its_show_and_a_request_replaces_or_waits :
    ((after .minuteBoundaryEvaluation (state (clockAt 36845200 none (stored (everyHour 14) showHeld)))).slots.read 0).state = .running ∧
      ((requestStart (request 2) (calendarRuns showHeld)).slots.read 0).rank = 2 ∧
      ((requestStart (request 1) (calendarRuns showHeld)).slots.read 0).waiting.isSome = true := by decide +kernel

theorem test_meets_WinnerHasTheHighestRank :
    let e := calendarEntry fun k => [(0x0101010C : Word), 0x1F7F0000, 0xFFFFFF01, 0x02000000].getD k 0
    winner [e] 0 DateTime.first = some e ∧ winner [e] 1 DateTime.first = none := by decide +kernel

theorem test_meets_TimeFrameSetsSlewsOrSteps :
    let f := entry Kind.time [0x07, 0xD0, 1, 1, 10, 14, 6, 0x02, 0x8A]
    let with_ := fun (f : IntakeEntry) (p : Part) => setCalendarIntake (fun q => { q with entries := [f] }) p
    let d := fun p : Part => ((timeOfPayload f.frame).later 0).millis - (p.cal.clock.millis : Int)
    (with_ f start).phase = .running ∧ (with_ f start).filter.calendar.entries = [f] ∧ f.frame.kind = Kind.time ∧
      f.frame.payload.length = 9 ∧ (timeOfPayload f.frame).possible = true ∧ start.cal.clockState = .unset ∧
      (d (clockAt 36845200 none start)).natAbs ≤ 2000 ∧ d (clockAt 36850000 none start) < -2000 ∧
      2000 < d (clockAt 36840000 none start) ∧ (entry Kind.coil []).frame.kind ≠ Kind.time ∧
      (timeOfPayload (entry Kind.time [0x07, 0xD0, 2, 30, 0, 0, 0, 0, 0]).frame).possible = false := by decide +kernel

theorem test_a_step_forward_is_caught_up_from_the_latest_minute :
    let p := stored (everyHour 3) showHeld
    let bs := skippedBoundaries (some (timeOfMillis 120000)) 245000 5
    bs = [timeOfMillis 240000, timeOfMillis 180000] ∧ skippedBoundaries none 245000 1 = [timeOfMillis 240000] ∧
      winner (readCalendar (List.range 64) p).1 0 (timeOfMillis 240000) = none ∧
      (winner (readCalendar (List.range 64) p).1 0 (timeOfMillis 180000)).isSome = true ∧
      ((catchUpSlot bs p 0).slots.read 0).state = .running := by decide +kernel

theorem test_meets_CueTimerCountsAndOverflows :
    let p := setTimer 3 (fun t => { t with run := true, count := 16777214 }) start
    let q := setTimer 3 (fun t => { t with run := true, count := 16777215 }) start
    let b := setTimer 3 (fun t => { t with binding := some (2, 31) }) q
    p.phase = .running ∧ (p.cal.timers.read 3).run = true ∧ (p.cal.timers.read 3).count < 16777215 ∧
      (start.cal.timers.read 3).run = false ∧ (q.cal.timers.read 3).count = 16777215 ∧
      (q.cal.timers.read 3).binding = none ∧ (b.cal.timers.read 3).binding = some (2, 31) ∧
      allStopAsserted (tripped 0 .allStop false b) = true := by decide +kernel

theorem test_meets_TimerControlChangesOneField :
    let at_ := fun (l : List Byte) => Waiting .timerControl (ask l) [] (asking l start)
    let top := setTimer 7 (fun t => { t with count := 16777215 }) start
    at_ [15, 8, 0, 0, 0, 0] ∧ 8 ≤ (ask [15, 8, 0, 0, 0, 0]).frame.arg 1 ∧ at_ [15, 7, 0, 0, 0, 0] ∧ at_ [15, 7, 1, 0, 0, 0] ∧
      at_ [15, 7, 2, 0, 0, 0] ∧ at_ [15, 7, 3, 0, 0, 0] ∧ at_ [15, 7, 4, 255, 255, 255] ∧ at_ [15, 7, 5, 255, 0, 0] ∧
      at_ [15, 7, 5, 2, 31, 0] ∧ at_ [15, 7, 5, 3, 0, 0] ∧ (ask [15, 7, 5, 2, 31, 0]).frame.arg 1 = (7 : TimerIx).val ∧
      (start.cal.timers.read 7).run = false ∧ (start.cal.timers.read 7).count < 16777215 ∧
      (top.cal.timers.read 7).count = 16777215 ∧ (top.cal.timers.read 7).binding = none ∧
      Waiting .timerControl (ask [15, 7, 2, 0, 0, 0]) [] (asking [15, 7, 2, 0, 0, 0] top) := by decide +kernel

theorem test_meets_ShowStartFillsTheSlotOrIsRefused :
    let ask_ := ask [8, 2, 31, 0]
    let s := asking [8, 2, 31, 0] showHeld
    let busy := asking [8, 0, 31, 1] (running showHeld)
    Waiting .showStart ask_ [] s ∧ ask_.frame.arg 1 = (2 : SlotIx).val ∧ ask_.frame.arg 2 = (31 : ShowIx).val ∧
      allStopAsserted s.part = false ∧ (s.part.slots.read 2).state = .idle ∧ passes (checkShow 31 s.part).1 = true ∧
      repetitions ShowCopy.initial (clockHour s.part) = some 1 ∧ passes (checkShow 30 s.part).1 = false ∧
      passes (checkShow 31 (asking [8, 2, 31, 0] countHeld).part).1 = true ∧
      Waiting .showStart (ask [8, 0, 31, 1]) [] busy ∧ (busy.part.slots.read 0).state ≠ .idle ∧
      (ask [8, 0, 31, 1]).frame.arg 3 ≠ 0 ∧ Waiting .showStart (ask [8, 3, 0, 0]) [] (asking [8, 3, 0, 0] showHeld) ∧
      Waiting .showStart (ask [8, 0, 32, 0]) [] (asking [8, 0, 32, 0] showHeld) ∧
      allStopAsserted (tripped 0 .allStop false showHeld) = true := by decide +kernel

theorem test_show_start_runs_and_an_hour_count_with_no_clock_is_refused :
    ((after .showStart (asking [8, 2, 31, 0] showHeld)).slots.read 2).state = .running ∧
      reply (after .showStart (asking [8, 2, 31, 0] showHeld)) = [8, 0] ∧
      reply (after .showStart (asking [8, 2, 31, 0] countHeld)) = [8, 4] := by decide +kernel

theorem test_meets_ShowHoldFreezesTheSlot :
    let s := asking [10, 0] (running start)
    Waiting .showHold (ask [10, 0]) [] s ∧ (ask [10, 0]).frame.arg 1 = (0 : SlotIx).val ∧ (s.part.slots.read 0).state = .running ∧
      Waiting .showHold (ask [10, 3]) [] (asking [10, 3] start) ∧ 3 ≤ (ask [10, 3]).frame.arg 1 ∧
      ((asking [10, 0] start).part.slots.read 0).state ≠ .running := by decide +kernel

/-- Slot 0 is held since line time 400, at line time 1,000. -/
def held : Part := atTime 1000 (setSlot 0 (fun x => { x with state := .held, hold := some 400 }) (running start))

theorem test_meets_ShowResumeContinuesTheSlot :
    let s := asking [11, 0] held
    Waiting .showResume (ask [11, 0]) [] s ∧ (s.part.slots.read 0).state = .held ∧ (s.part.slots.read 0).hold = some 400 ∧
      400 ≤ s.part.lineTime ∧ ((after .showResume s).slots.read 0).origin = 600 ∧
      ((asking [11, 1] held).part.slots.read 1).state ≠ .held ∧ 3 ≤ (ask [11, 3]).frame.arg 1 := by decide +kernel

theorem test_meets_ShowStopIdlesTheSlot :
    Waiting .showStop (ask [9, 0, 1]) [] (asking [9, 0, 1] held) ∧ (ask [9, 0, 1]).frame.arg 2 ≠ 0 ∧
      Waiting .showStop (ask [9, 0, 0]) [] (asking [9, 0, 0] held) ∧ (held.slots.read 0).state ≠ .idle ∧
      Waiting .showStop (ask [9, 2, 0]) [] (asking [9, 2, 0] held) ∧ (held.slots.read 2).state = .idle ∧
      Waiting .showStop (ask [9, 3, 0]) [] (asking [9, 3, 0] held) ∧
      ((after .showStop (asking [9, 0, 1] held)).slots.read 0).state = .idle := by decide +kernel

theorem test_meets_ShowsEndAndPendingStartsExpire :
    let p := atTime 1000 (running start)
    let w : PendingStart := { showIx := 0, source := .timer, rank := 0, hour := none, trigger := 0, expiry := 1000 }
    let q := setSlot 2 (fun x => { x with waiting := some w }) p
    p.phase = .running ∧ (p.slots.read 0).state = .running ∧
      (0 : Nat) * (1000 + 0) + 1000 ≤ p.lineTime - (p.slots.read 0).origin ∧ (p.slots.read 0).waiting = none ∧
      allStopAsserted p = false ∧ ((setSlot 0 (fun x => { x with waiting := some w }) p).slots.read 0).waiting = some w ∧
      (held.slots.read 0).state = .held ∧ (q.slots.read 2).waiting = some w ∧ w.expiry ≤ q.lineTime ∧
      ((after (.showEnd 0) (state p)).slots.read 0).state = .idle := by decide +kernel

/-- Slot 0 runs a show whose barrel, of one row for bell 7 and eight steps of 100 ms, begins at word 2,000. The
first four elements are velocities 64, 0, 255 and 1. -/
def barrelRuns (rowMap : List Nat) : Part :=
  let h : BarrelHeader := { rows := 1, size := 1, steps := 8, stepLength := 100, span := 2 }
  setContext 0 (fun _ => BarrelContext.prepared 2000 h rowMap 1000)
    { running (stored [(2003, 0x4000FF01)] (bellSeven start)) with bellOwner := start.bellOwner.update 7 fun _ => some 0 }

theorem test_meets_BarrelReadsEveryDueStep :
    let p := barrelRuns [7]
    let bad := { p with table := { p.table with words := putWord 2003 ⟨0, 0x3⟩ p.table.words } }
    let lost := { p with table := { p.table with words := putWord 92 ⟨0, 0x3⟩ p.table.words } }
    p.phase = .running ∧ (p.slots.read 0).state = .running ∧ (p.contexts.read 0).rep < (p.slots.read 0).reps ∧
      (p.contexts.read 0).step ≤ (p.contexts.read 0).lastStep ∧ stepDue 0 p = true ∧ stepDue 1 p = false ∧
      (readWord .barrel 2003 p).1 = some 0x4000FF01 ∧ byteAt (0x4000FF01 : Word) 0 ≠ 0 ∧ byteAt (0x4000FF01 : Word) 1 = 0 ∧
      ((readBell 7 [0] p).1.map BellRecord.node) = some 14 ∧ ((readBell 8 [0] p).1.map BellRecord.node) = some 0 ∧
      (readWord .barrel 2003 bad).1 = none ∧ (readBell 7 [0] lost).1 = none ∧ (47 : Nat) < [48].getD 0 255 := by decide +kernel

theorem test_barrel_steps_become_strikes :
    ((after (.barrelStepRead 0) (state (barrelRuns [7]))).contexts.read 0).step = 5 ∧
      (after (.barrelStepRead 0) (state (barrelRuns [7]))).strikes.queue.map (fun e => (e.velocity, e.fire)) = [(127, 188)] ∧
      (after (.barrelStepRead 0) (state (barrelRuns [7]))).out.strike.map StrikeFrame.fire = [-26] ∧
      (after (.barrelStepRead 0) (state (barrelRuns [48]))).counts.noBell = 3 := by decide +kernel

theorem test_meets_StrikeReleaseTakesTheDueHeads :
    let p := setQueue [{ slot := 0, bell := 7, velocity := 1, fire := 8 }, { slot := 0, bell := 7, velocity := 1, fire := 9 }] start
    p.phase = .running ∧ (after .strikeRelease (state p)).out.strike.length = 1 ∧
      (after .strikeRelease (state p)).strikes.queue.length = 1 := by decide +kernel

theorem test_meets_NoteIsInsertedInFireOrder :
    let old : Strike := { slot := 0, bell := 7, velocity := 1, fire := 1204824 }
    let p := setQueue [old] start
    let q := setBell 7 (fun b => { b with released := some 1204825, health := .outFault }) p
    let shifted := { start with bellOwner := (start.bellOwner.update 7 fun _ => some 0).update 8 fun _ => some 0 }
    p.strikes.queue.Pairwise (fun a b => a.fire ≤ b.fire) ∧ (p.strikes.bells.read 7).released = none ∧
      150 ≤ (old.fire - 1204974).natAbs ∧ (old.fire - 1204973).natAbs < 150 ∧ p.strikes.queue.length < 64 ∧
      64 ≤ (List.replicate 64 old).length ∧ (q.strikes.bells.read 7).released = some 1204825 ∧
      (1204974 : Int) - 1204825 < 150 ∧ (q.strikes.bells.read 7).health ≠ .inService ∧ start.bellOwner.read 7 ≠ some 0 ∧
      shifted.bellOwner.read 7 = some 0 ∧ (shifted.strikes.bells.read 7).health = .inService ∧
      ((readBell 7 [0, 1] (bellSeven shifted)).1.isSome = true) ∧
      ((readBell 7 [3] (bellSeven shifted)).1.map BellRecord.substitute) = some none ∧
      ((readBell 7 [3] (stored [(95, 0x08320000), (96, 0x01000000)] (bellSeven shifted))).1.map BellRecord.substitute) = some (some 8) ∧
      ((readBell 8 [0, 1] (stored [(96, 0x01000000)] shifted)).1.map BellRecord.node) = some 1 := by decide +kernel

theorem test_notes_are_substituted_shadowed_or_merged :
    let shifted := { start with bellOwner := (start.bellOwner.update 7 fun _ => some 0).update 8 fun _ => some 0 }
    let p := setBell 7 (fun b => { b with health := .outFault }) (stored [(95, 0x08320000), (96, 0x01000000)] (bellSeven shifted))
    (handNote 0 7 64 1000 p).strikes.queue = [{ slot := 0, bell := 8, velocity := 32, fire := 1000 }] ∧
      (handNote 1 7 64 1000 p).counts.shadowed = 1 ∧
      (placeNote 0 7 (bellRecord fun k => [(0x0E030C1E : Word), 0x1E780096].getD k 0) 127 1204985
        (setQueue [{ slot := 0, bell := 7, velocity := 1, fire := 1204824 }] start)).strikes.queue.map Strike.velocity = [127] := by decide +kernel

theorem test_meets_CoolingTickLowersTheHeat :
    start.phase = .running ∧ (atTime 10 start).lineTime % 10 = 0 ∧ start.table.words = [] := by decide +kernel

theorem test_initial_table_is_clean : start.table.clean := by
  intro a
  rfl

/-- A BELLS intake entry waits in a part that holds bell 7's record. -/
def coilWaits (e : IntakeEntry) : State := state (setBellsIntake (fun q => { q with entries := [e] }) (bellSeven start))

/-- A COIL report of a status from node 14, channel 3. -/
def coil (status : Byte) : IntakeEntry := { entry Kind.coil [3, status] with frame := ⟨0, 14, Kind.coil, 0, [3, status]⟩ }

theorem test_meets_CoilReportActsByItsStatus :
    let p := fun e => setBellsIntake (fun q => { q with entries := [] }) (coilWaits e).part
    (coilWaits (coil 0)).part.phase = .running ∧ (coilWaits (coil 0)).part.filter.bells.entries = [coil 0] ∧
      (coil 0).frame.kind = Kind.coil ∧ (coil 0).frame.payload.length = 2 ∧ (entry Kind.coil [3]).frame.payload.length ≠ 2 ∧
      (scanBells 14 3 false allBells (p (coil 0))).1.isSome = true ∧ (scanBells 14 3 true allBells (p (coil 3))).1.isSome = true ∧
      (scanBells 15 3 false allBells (p (coil 0))).1 = none ∧ (scanBells 15 3 true allBells (p (coil 3))).1 = none ∧
      3 < (coil 4).frame.arg 1 := by decide +kernel

theorem test_coil_report_puts_the_bell_out_or_at_its_limit :
    ((after .coilReportTaken (coilWaits (coil 1))).strikes.bells.read 7).health = .outFault ∧
      ((after .coilReportTaken (coilWaits (coil 3))).strikes.bells.read 7).heat = 10000 := by decide +kernel

theorem test_meets_BellServiceSetsTheHealth :
    Waiting .bellService (ask [14, 48, 0]) [] (asking [14, 48, 0] start) ∧ 48 ≤ (ask [14, 48, 0]).frame.arg 1 ∧
      Waiting .bellService (ask [14, 47, 2]) [] (asking [14, 47, 2] start) ∧
      Waiting .bellService (ask [14, 47, 1]) [] (asking [14, 47, 1] start) ∧ (ask [14, 47, 1]).frame.arg 1 = (47 : BellIx).val ∧
      Waiting .bellService (ask [14, 47, 0]) [] (asking [14, 47, 0] start) ∧
      reply (after .bellService (asking [14, 47, 1] start)) = [14, 0, 2] := by decide +kernel

theorem test_a_withdrawal_that_leaves_the_head_releases_nothing :
    let s := fun b => asking [14, b, 1] (setQueue [{ slot := 0, bell := 7, velocity := 1, fire := 0 }, { slot := 0, bell := 8, velocity := 1, fire := 0 }] start)
    (after .bellService (s 8)).strikes.queue.map Strike.bell = [7] ∧ (after .bellService (s 8)).out.strike = [] ∧
      (after .bellService (s 7)).strikes.queue = [] ∧ (after .bellService (s 7)).out.strike.map StrikeFrame.bell = [8] := by decide +kernel

/-- Figure 4 of chapter 05 is HOMING from 500, alone in motion. -/
def homing : Part :=
  setFigure 4 (fun g => { g with setpoint := 500 }) (figured 4 .homing
    (stored [(288, 0x01040003), (289, 0x01000064), (290, 0xFE0C07D0), (291, 0x001403E8), (292, 0x01F40000)] start))

theorem test_meets_MotionPeriodSendsOneStepToTheTarget :
    let g := homing.figures.read 4
    let r := readFigure 4 (figurePeriodWords g.takesHome) homing
    homing.phase = .running ∧ homing.lineTime % 20 = 0 ∧ g.state = .homing ∧
      (∀ j : FigIx, j ≠ 4 → (homing.figures.read j).state ≠ .driven ∧ (homing.figures.read j).state ≠ .homing) ∧
      (r.1.map fun x => (x.node, x.home, x.lower, x.upper)) = some (1, 100, -500, 2000) ∧ g.silence = none ∧ g.stall = none ∧
      homing.out.motion.length < 32 := by decide +kernel

theorem test_motion_period_takes_one_step_home :
    ((after .motionPeriod (state homing)).figures.read 4).setpoint = 480 ∧
      (after .motionPeriod (state homing)).out.motion.map (fun m => m.frame.payload) = [[4, 0x01, 0xE0, 1]] := by decide +kernel

theorem test_meets_MotionPeriodMovesNoSetpointTooFar :
    homing.phase = .running ∧ (atTime 19 homing).lineTime % 20 ≠ 0 ∧ setpointsInRange homing := by unfold setpointsInRange; decide +kernel

/-- A FIGURES intake entry waits. -/
def positionWaits (e : IntakeEntry) : State := state (setFiguresIntake (fun q => { q with entries := [e] }) homing)

/-- A POSITION report of 600 from node 1 and a channel, with an end-stop byte. -/
def position (channel endStop : Byte) : IntakeEntry :=
  { frame := ⟨0, 1, Kind.position, 0, [channel, 0x02, 0x58, endStop]⟩, stamp := 0, hit := 3 }

theorem test_meets_PositionReportIsStored :
    let p := setFiguresIntake (fun q => { q with entries := [] }) (positionWaits (position 4 0)).part
    let bad := { p with table := { p.table with words := putWord 291 ⟨0, 0x3⟩ p.table.words } }
    (positionWaits (position 4 0)).part.phase = .running ∧
      (positionWaits (position 4 0)).part.filter.figures.entries = [position 4 0] ∧
      (position 4 0).frame.kind = Kind.position ∧ (position 4 0).frame.payload.length = 4 ∧
      (scanFigures 1 4 allFigures p).1 = some 4 ∧ (scanFigures 1 4 allFigures bad).1 = some 4 ∧
      (readFigure 4 [3, 4] p).1.isSome = true ∧ (readFigure 4 [3, 4] bad).1 = none ∧ (scanFigures 1 5 allFigures p).1 = none ∧
      (p.figures.read 4).state = .homing ∧ (position 4 1).frame.arg 3 ≠ 0 ∧ (position 4 0).frame.arg 3 = 0 ∧
      ((figured 4 .idle p).figures.read 4).state = .idle ∧ (entry Kind.coil []).frame.kind ≠ Kind.position := by decide +kernel

theorem test_position_report_is_stored_or_faults :
    ((after .positionReportTaken (positionWaits (position 4 0))).figures.read 4).reported = some 600 ∧
      ((after .positionReportTaken (positionWaits (position 4 1))).figures.read 4).state = .faulted := by decide +kernel

theorem test_meets_FigureReleaseFreesTheFiguresNamed :
    let s := asking [13, 0x80, 0x01] (setFigure 15 (fun g => { g with hold := 0x01 }) (figured 15 .faulted (figured 0 .frozen start)))
    Waiting .figureRelease (ask [13, 0x80, 0x01]) [] s ∧
      ((ask [13, 0x80, 0x01]).frame.arg 1 * 256 + (ask [13, 0x80, 0x01]).frame.arg 2).testBit 15 = true ∧
      (s.part.figures.read 15).hold &&& ~~~ releasable s.part = 0 ∧ (s.part.figures.read 15).state = .faulted ∧
      (s.part.figures.read 0).state = .frozen ∧ (readFigure 15 [0, 2] s.part).1.isSome = true ∧ ((after .figureRelease s).figures.read 15).state = .homing := by decide +kernel

theorem test_meets_GuardSampleCountsTheRuns :
    let p := { start with guard := { start.guard with awaitingSample := false } }
    p.phase = .running ∧ p.guard.awaitingSample = false ∧ start.guard.awaitingSample = true ∧
      ((after (.guardInputSample 0xFE) (state p)).guard.lines.read 0).run = 1 := by decide +kernel

theorem test_meets_GuardChangesAreTaken :
    let due := setLine 4 (fun l => { l with settle := some 0 }) start
    (start.guard.lines.read 4).run ≠ 10 ∧ (tripped 4 .note true start).phase = .running ∧
      ((tripped 4 .note true start).guard.lines.read 4).run = 10 ∧
      ((tripped 4 .note true start).guard.lines.read 4).asserted = false ∧
      ((tripped 4 .note true start).guard.lines.read 4).config.cls = .note ∧
      ((tripped 4 .zoneFreeze false start).guard.lines.read 4).asserted = true ∧ settleDue 4 start = false ∧
      settleDue 4 due = true := by decide +kernel

theorem test_a_settle_resynchronises_the_figure_it_frees :
    let p := setFigure 3 (fun g => { g with state := .frozen, hold := 0x10, reported := some 50 })
      (stored [(280, 0x01020304), (282, 0x0000001E)] (setLine 4 (fun l => { l with settle := some 0 }) start))
    let g := (after (.settleEnd 4) (state p)).figures.read 3
    g.state = .homing ∧ g.setpoint = 30 ∧ g.silence = some 0 ∧ g.hold = 0 ∧ g.brake = some (1, 2) := by decide +kernel

theorem test_meets_AllStopStopsTheClock :
    let p := tripped 4 .allStop true (running start)
    p.phase = .running ∧ (p.guard.lines.read 4).run = 10 ∧ (p.guard.lines.read 4).asserted = false ∧
      (p.guard.lines.read 4).config.cls = .allStop ∧ ((after (.guardAssertion 4) (state p)).slots.read 0).state = .idle ∧
      stopActive (after (.guardAssertion 4) (state p)) = true ∧
      (after (.guardAssertion 4) (state p)).out.guard.map (fun f => (f.dest, f.payload)) = [(127, [255])] ∧
      p.out.guard.length < 16 ∧ 16 ≤ (List.replicate 16 stray).length := by decide +kernel

theorem test_meets_ZoneFreezeHoldsItsZones :
    let p := tripped 4 .zoneFreeze true start
    p.phase = .running ∧ p.table.words = [] ∧ (p.guard.lines.read 4).run = 10 ∧ (p.guard.lines.read 4).asserted = false ∧
      (p.guard.lines.read 4).config.cls = .zoneFreeze := by decide +kernel

theorem test_zone_freeze_holds_a_figure_of_its_zone :
    let p := tripped 4 .zoneFreeze true (figured 3 .driven (stored [(280, 0x01000204)] start))
    ((after (.guardAssertion 4) (state p)).figures.read 3).state = .frozen ∧
      ((after (.guardAssertion 4) (state p)).figures.read 3).hold = 0x10 ∧
      (after (.guardAssertion 4) (state p)).out.guard.map (fun f => (f.dest, f.payload)) = [(1, [0])] := by decide +kernel

theorem test_meets_CausesAreLatchedAndPulsesEnd :
    let p := { start with events := { start.events with routeBeacon := 1, beacon := { mode := .pulse, pulseEnd := some 7 } } }
    let q := { start with events := { start.events with routeStop := 1, stop := { mode := .pulse, pulseEnd := some 7 } } }
    start.events.latches.getLsbD 31 = false ∧ start.events.enables.getLsbD 31 = true ∧
      start.events.routeFrame.getLsbD 31 = true ∧ start.out.report.length < 16 ∧
      (latchEvent 31 start).events.latches.getLsbD 31 = true ∧ p.events.routeBeacon.getLsbD 0 = true ∧
      p.events.beacon.mode = .pulse ∧ (state p).part.phase = .running ∧ p.events.beacon.pulseEnd = some 7 ∧
      q.events.stop.pulseEnd = some 7 ∧ (latchEvent 0 p).events.beacon.pulseEnd = some 50 ∧
      q.events.routeStop.getLsbD 0 = true ∧ q.events.stop.mode = .pulse ∧ (latchEvent 0 q).events.stop.pulseEnd = some 50 := by decide +kernel

theorem test_meets_EventsAndGuardLinesAreRead :
    Waiting .eventRead (ask [16]) [] (asking [16] start) ∧
      Waiting .eventClear (ask [17, 255, 0, 0, 0]) [] (asking [17, 255, 0, 0, 0] start) ∧
      Waiting .guardRead (ask [18]) [] (asking [18] start) ∧
      reply (after .guardRead (asking [18] start)) = [18, 0, 1, 1, 1, 1, 1, 1, 1, 1] := by decide +kernel

theorem test_event_clear_clears_the_named_sources :
    let p := latchEvent 31 (latchEvent 0 start)
    reply (after .eventRead (asking [16] p)) = [16, 0, 0x80, 0, 0, 1, 0, 0, 0, 0, 255, 255, 255, 255, 0] ∧
      reply (after .eventClear (asking [17, 0x80, 0, 0, 0] p)) = [17, 0, 0, 0, 0, 1, 0, 0, 0, 0, 255, 255, 255, 255] := by decide +kernel

theorem test_meets_SingleErrorsAreCorrected :
    (0 : Fin 39) ≠ 38 := by decide

theorem test_meets_TableWriteWritesItsWords :
    let last : List Byte := [1, 0x3F, 0xFF, 1, 2, 3, 4]
    let beyond : List Byte := [1, 0x3F, 0xFF, 1, 2, 3, 4, 5, 6, 7, 8]
    Waiting .tableWrite (ask last) [] (asking last start) ∧ (asking last start).part.table.wf = true ∧
      ((ask last).frame.arg 1 * 256 + (ask last).frame.arg 2) + 1 - 1 ≤ 16383 ∧
      Waiting .tableWrite (ask beyond) [] (asking beyond start) ∧
      16383 < ((ask beyond).frame.arg 1 * 256 + (ask beyond).frame.arg 2) + 2 - 1 ∧
      (after .tableWrite (asking last start)).table.words = [(16383, ⟨0x01020304, 0⟩)] := by decide +kernel

theorem test_meets_TableReadReturnsTheWords :
    Waiting .tableRead (ask [2, 0x3F, 0xFF, 1]) [] (asking [2, 0x3F, 0xFF, 1] start) ∧
      Waiting .tableRead (ask [2, 0x3F, 0xFF, 2]) [] (asking [2, 0x3F, 0xFF, 2] start) ∧
      Waiting .tableRead (ask [2, 0, 0, 0]) [] (asking [2, 0, 0, 0] start) ∧
      Waiting .tableRead (ask [2, 0, 0, 8]) [] (asking [2, 0, 0, 8] start) ∧
      reply (after .tableRead (asking [2, 0x3F, 0xFF, 1] (stored [(16383, 0x01020304)] start))) = [2, 0, 1, 2, 3, 4] := by decide +kernel

theorem test_meets_WorstErrorIsKeptAndRead :
    let p := offerUncorrectable .record 300 start
    p.table.capture.kind ≠ .empty ∧ start.table.capture.kind = .empty ∧
      Waiting .errorRead (ask [20, 1]) [] (asking [20, 1] p) ∧ Waiting .errorRead (ask [20, 1]) [] (asking [20, 1] start) ∧
      reply (after .errorRead (asking [20, 1] p)) = [20, 0, 2, 0x01, 0x2C, 255, 2, 0, 0, 0] ∧
      (after .errorRead (asking [20, 1] p)).table.capture.kind = .empty := by decide +kernel

theorem test_meets_EntriesAreJudgedInOrder :
    (asking [] start).part.filter.management.entries = [ask []] ∧ (ask []).frame.payload = [] ∧
      (ask [23, 1]).frame.payload = [23, 1] ∧ 22 < (23 : Byte).toNat ∧ (entry Kind.poll [1]).frame.kind ≠ Kind.request ∧
      (ask [22, 0]).frame.request = some .softReset ∧ Request.softReset.lengthSuits (ask [22, 0]).frame.payload.length = false ∧
      reply (after .emptyRequest (asking [] start)) = [0, 8] ∧ reply (after .unknownRequest (asking [23, 1] start)) = [23, 7] ∧
      reply (after .softReset (asking [22, 0] start)) = [22, 8] := by decide +kernel

theorem test_meets_NonRequestEntryDiscarded :
    let e := { entry Kind.poll [1] with hit := 9 }
    let q := after .nonRequestEntryDiscarded (state (setManagement [e] start))
    q.filter.management.entries = [] ∧ q.filter.management.rejected = some 9 ∧ q.out.report = [] := by decide +kernel

theorem test_meets_FiltersAndMasksAreWrittenAndRead :
    let at_ := fun r (l : List Byte) => Waiting r (ask l) [] (asking l start)
    at_ .filterWrite [4, 31, 2, 1, 0, 0, 5, 0, 3, 5, 1] ∧ at_ .filterWrite [4, 32, 2, 1, 0, 0, 5, 0, 3, 5, 1] ∧
      at_ .filterWrite [4, 0, 2, 1, 0, 0, 5, 0, 3, 5, 1] ∧ Direction.ofCode 2 = some .both ∧ Action.ofCode 5 = some .poll ∧
      (start.filter.filters.read 31).enabled = false ∧ (start.filter.filters.read 0).enabled = true ∧
      at_ .maskWrite [5, 4, 0, 0, 0, 0] ∧ at_ .maskWrite [5, 0, 1, 2, 3, 4] ∧ at_ .maskWrite [5, 3, 1, 2, 3, 4] ∧
      (start.filter.filters.read 0).mask = 0 ∧
      (∀ i : FilterIx, (start.filter.filters.read i).enabled = true → (start.filter.filters.read i).mask ≠ 3) ∧
      at_ .filterRead [7, 31] ∧ at_ .filterRead [7, 32] := by decide +kernel

theorem test_filters_and_masks_answer :
    reply (after .filterWrite (asking [4, 31, 2, 1, 0, 0, 5, 0, 3, 5, 1] start)) = [4, 0] ∧
      reply (after .filterWrite (asking [4, 0, 2, 1, 0, 0, 5, 0, 3, 5, 1] start)) = [4, 5] ∧
      reply (after .maskWrite (asking [5, 0, 1, 2, 3, 4] start)) = [5, 5] ∧
      reply (after .filterRead (asking [7, 0] start)) = [7, 0, 1, 0, 0, 1, 0, 4, 0, 0, 1, 0, 0xFF, 0, 0xFF, 0] := by decide +kernel

theorem test_meets_FilterEnableSetsTheFlag :
    Waiting .filterEnable (ask [6, 31, 1]) [] (asking [6, 31, 1] start) ∧ (ask [6, 31, 1]).frame.arg 1 = (31 : FilterIx).val ∧
      Waiting .filterEnable (ask [6, 32, 1]) [] (asking [6, 32, 1] start) ∧
      Waiting .filterEnable (ask [6, 31, 2]) [] (asking [6, 31, 2] start) ∧ (start.filter.filters.read 31).enabled = false ∧
      ((after .filterEnable (asking [6, 31, 1] start)).filter.filters.read 31).enabled = true := by decide +kernel

theorem test_meets_ApplyConfigPutsTheBlockInPlace :
    let bad := { start with table := { start.table with words := [(63, ⟨0, 0x3⟩)] } }
    Waiting .applyConfig (ask [3]) [] (asking [3] start) ∧
      none ∉ (readEach .management (List.range 64) (asking [3] start).part).1 ∧
      Waiting .applyConfig (ask [3]) [] (asking [3] bad) ∧
      none ∈ (readEach .management (List.range 64) (asking [3] bad).part).1 ∧
      (readFigure 0 [0, 2] start).1.isSome = true ∧
      (readFigure 0 [0, 2] { start with table := { start.table with words := [(258, ⟨0, 0x3⟩)] } }).1 = none := by decide +kernel

theorem test_apply_config_stops_the_clock_by_a_line_that_becomes_asserted :
    let p := stored [(16, 0x01020000)] (running (setLine 4 (fun l => { l with taken := true }) start))
    let q := after .applyConfig (asking [3] p)
    (q.slots.read 0).state = .idle ∧ member q.events.latches 4 = true ∧ member (q.figures.read 0).hold 4 = true ∧
      (q.guard.lines.read 4).settle = none := by decide +kernel

theorem test_apply_config_clamps_a_zero_block :
    reply (after .applyConfig (asking [3] start)) = [3, 1] ∧
      (after .applyConfig (asking [3] start)).settings.lookahead = 100 ∧
      (after .applyConfig (asking [3] start)).settings.ownAddress = 1 := by decide +kernel

theorem test_meets_StatusReadReportsAndClears :
    let at_ := fun (l : List Byte) => Waiting .statusRead (ask l) [] (asking l start)
    at_ [19, 5, 0, 0] ∧ at_ [19, 0, 4, 0] ∧ at_ [19, 2, 0, 1] ∧ at_ [19, 0, 0, 0] ∧ at_ [19, 0, 3, 0] ∧ at_ [19, 1, 15, 0] ∧
      at_ [19, 1, 21, 0] ∧ at_ [19, 2, 0, 0] ∧ at_ [19, 3, 0, 0] ∧ at_ [19, 3, 2, 1] ∧ at_ [19, 4, 0, 0] ∧
      (start.slots.read 2).state = .idle ∧ ((running start).slots.read 0).busy = true ∧
      Waiting .statusRead (ask [19, 0, 1, 0]) [] (asking [19, 0, 1, 0] (running start)) := by decide +kernel

theorem test_status_read_of_the_queues_and_the_clear :
    reply (after .statusRead (asking [19, 2, 0, 0] start)) =
        [19, 0, 0, 0, 0, 0, 0, 0, 0, 0, 0, 0, 0, 0, 0, 255, 255, 255, 255] ∧
      (after .statusRead (asking [19, 3, 0, 1] (setCounts (fun c => { c with late := 9 }) start))).counts.late = 0 := by decide +kernel

theorem test_meets_VerifySweepBeginsReadsAndFinishes :
    let inFlight := after .verifyShow (asking [12, 31] start)
    Waiting .verifyShow (ask [12, 31]) [] (asking [12, 31] start) ∧ (ask [12, 31]).frame.arg 1 = (31 : ShowIx).val ∧
      Waiting .verifyShow (ask [12, 32]) [] (asking [12, 32] start) ∧ start.verify.result.state ≠ .inProgress ∧
      inFlight.verify.result.state = .inProgress ∧ inFlight.phase = .running := by decide +kernel

/-! ## States that meet the invariants, and steps from them -/

theorem test_meets_StepsKeepTheTableForm :
    State.reset.part.table.wf = true ∧ step State.reset = .next (idle State.reset) := ⟨rfl, rfl⟩

theorem test_meets_StepsKeepTheQueuesBounded : queuesBounded start ∧ markBounded start.out :=
  ⟨by unfold queuesBounded; decide, by unfold markBounded; decide⟩

theorem test_meets_StepsKeepTheStrikesInOrder : strikesOrdered start ∧ strikesOwned start :=
  ⟨List.Pairwise.nil, fun _ h => nomatch h⟩

theorem test_meets_StepsKeepTheOwnersRight : ownersAgree start := by unfold ownersAgree; decide +kernel

/-- An ALL-STOP line that is asserted, after it has stopped the clock. -/
def stopped : Part := after (.guardAssertion 4) (state (tripped 4 .allStop true (running start)))

theorem test_meets_AllStopLastsThroughEveryStep :
    stopsHold stopped ∧ stopped.guard.awaitingSample = false ∧ (stopped.guard.lines.read 4).stops = true := by
  unfold stopsHold quiet holdsEvery
  decide +kernel

theorem test_meets_StampNeverGoesBack : clockSound start.cal := by unfold clockSound; decide +kernel

theorem test_meets_ReceivedFramesAreAccountedFor :
    portSums start.up.counts ∧ portSums start.down.counts ∧ start.up.counts.received < 65535 :=
  ⟨rfl, rfl, by decide⟩

/-! ## One step of the commands that no test above carries out -/

theorem test_resets_step :
    (after .powerOnReset (state (atTime 5 start))).lineTime = 0 ∧
      (after .lineBreakReset (state start)).phase = .lineBreak ∧
      ((after .lbrEnd (state (after .lineBreakReset (state start)))).out.report.map Frame.payload) = [[0x80, 0, 0, 0, 0, 0, 0, 0]] ∧
      (after .softReset (asking [22] start)).phase = .softReset ∧
      (after .softResetEnd (state (after .softReset (asking [22] start)))).phase = .softReset ∧
      (after .softResetEnd (state { after .softReset (asking [22] start) with resetHold := 1 })).phase = .running := by decide +kernel

theorem test_receiver_commands_step :
    (after (.badStopBit .upline) (state listening)).up.counts.checkErrors = 1 ∧
      (after (.truncation .upline) (state listening)).up.rx.state = .ready ∧
      (after (.lengthAbove32 .upline 33) (state listening)).up.rx.state = .hunt ∧
      (after (.receiverReady .downline) (state start)).down.rx.state = .ready ∧
      (after (.runOnCharacter .upline) (state (after (.frameReceived .upline requested (frameCheck requested)) (state listening)))).up.counts.checkErrors = 1 := by decide +kernel

theorem test_frames_are_delivered_and_forwarded :
    (after (.frameReceived .upline requested (frameCheck requested)) (state listening)).filter.management.entries.map
        (fun e => e.frame.payload) = [[16]] ∧
      (after (.frameReceived .upline stray (frameCheck stray)) (state listening)).out.passDn.length = 1 ∧
      (after (.frameReceived .upline stray 0) (state listening)).up.counts.checkErrors = 1 := by decide +kernel

theorem test_breaks_and_transmitters_step :
    member (after .downlineBreak (state start)).events.latches 29 = true ∧
      (after .downlineBreakEnd (state (after .downlineBreak (state start)))).down.rx.inBreak = false ∧
      (after .uplineTransmitStart (state (setOut (fun o => { o with report := [stray] }) start))).up.tx =
        .sending ⟨stray, frameCheck stray⟩ := by decide +kernel

theorem test_clock_and_timers_step :
    (after .clockAdvance (state (setCal (fun c => { c with slew := 5 }) (clockAt 36845200 none start)))).cal.clock =
        timeOfMillis 36845202 ∧
      (after .minuteBoundaryEvaluation (state (clockAt 36845200 none start))).cal.stamp = some (timeOfMillis 36840000) ∧
      ((after (.cueTimerCount 3) (state (setTimer 3 (fun t => { t with run := true }) start))).cal.timers.read 3).count = 1 ∧
      member (after (.cueTimerOverflow 3) (state (setTimer 3 (fun t => { t with run := true, count := 16777215 }) start))).events.latches 11 =
        true := by decide +kernel

theorem test_timer_control_steps :
    ((after .timerRun (asking [15, 7, 0, 0, 0, 0] start)).cal.timers.read 7).run = true ∧
      ((after .timerStop (asking [15, 7, 1, 0, 0, 0] (setTimer 7 (fun t => { t with run := true }) start))).cal.timers.read 7).run = false ∧
      ((after .timerStep (asking [15, 7, 2, 0, 0, 0] start)).cal.timers.read 7).count = 1 ∧
      ((after .timerTransfer (asking [15, 7, 3, 0, 0, 0] (setTimer 7 (fun t => { t with reload := 5 }) start))).cal.timers.read 7).count = 5 ∧
      ((after .timerSetReload (asking [15, 7, 4, 1, 0, 2] start)).cal.timers.read 7).reload = 65538 ∧
      ((after .timerSetBinding (asking [15, 7, 5, 2, 31, 0] start)).cal.timers.read 7).binding = some (2, 31) := by decide +kernel

theorem test_shows_hold_and_strikes_release :
    ((after .showHold (asking [10, 0] (running start))).slots.read 0).state = .held ∧
      ((after (.pendingExpiry 2) (state (setSlot 2 (fun x => { x with waiting := some ⟨0, .timer, 0, none, 0, 0⟩ }) start))).slots.read
        2).waiting = none ∧
      (after .strikeRelease (state (setQueue [{ slot := 0, bell := 7, velocity := 1, fire := 8 }] start))).out.strike.length = 1 := by decide +kernel

theorem test_guard_lines_and_pulses_step :
    ((after (.guardDeassertion 4) (state (tripped 4 .zoneFreeze false start))).guard.lines.read 4).settle = some 2000 ∧
      ((after (.settleEnd 4) (state (setLine 4 (fun l => { l with settle := some 0 }) start))).guard.lines.read 4).settle = none ∧
      (after (.pulseEnd .stop) (state { start with events := { start.events with
        stop := { mode := .pulse, pulseEnd := some 0 } } })).events.stop.pulseEnd = none := by decide +kernel

/-! ## Witnesses for the forms of a visit, of a recomputation and of the sweep -/

/-- Figure 4 is DRIVEN by the item of slot 0, whose path of two keyframes begins at word 2,000. -/
def driven (offset : Nat) (p : Part) : Part :=
  let item : FigureItem := { figure := 4, path := 2000, offset := offset }
  setFigure 4 (fun g => { g with state := .driven, owner := some 0, drive := some { item := 0, role := .item } })
    (setSlot 0 (fun x => { x with copy := { x.copy with items := [item] } })
      (running (stored [(2000, 0x02000000), (2001, 0), (2002, 0x07D003E8)] p)))

theorem test_meets_every_form_of_a_visit :
    let g := homing.figures.read 4
    let reads := fun p => (readFigure 4 (figurePeriodWords g.takesHome) p).1
    let lost := { homing with table := { homing.table with words := putWord 288 ⟨0, 0x3⟩ homing.table.words } }
    let unread := { driven 0 homing with table := { homing.table with words := putWord 2000 ⟨0, 0x3⟩ homing.table.words } }
    let x := fun (p : Part) => ((drivenTarget (p.figures.read 4) (figureRecord fun _ => 0) (atTime 700 p)).1)
    (start.figures.read 4).state = .idle ∧ g.state = .homing ∧ reads lost = none ∧
      ((reads (figured 4 .homing start)).map FigureRecord.node) = some 0 ∧
      ((reads homing).map fun r => (r.node, r.stallTime, r.lower, r.upper)) = some (1, 500, -500, 2000) ∧ g.silence = none ∧
      g.stall = none ∧ start.settings.reportTimeout = 500 ∧ homing.out.motion.length < 32 ∧
      32 ≤ (List.replicate 32 (PoseEntry.mk 4 stray)).length ∧ x (driven 800 homing) = some 500 ∧ x (driven 0 homing) = some 350 ∧
      x unread = none := by decide +kernel

theorem test_a_visit_faults_skips_or_waits :
    let told := fun (f : LiveFigure → LiveFigure) n => visitFigure 4 (atTime n (setFigure 4 f homing))
    let why := fun (p : Part) => (p.figures.read 4).fault
    why (told (fun g => { g with silence := some 0 }) 1000) = .silent ∧ why (told (fun g => { g with stall := some 0 }) 500) = .stall ∧
      why (told (fun g => { g with setpoint := 2001 }) 0) = .table ∧
      (visitFigure 4 (setOut (fun o => { o with motion := List.replicate 32 ⟨4, stray⟩ }) homing)).counts.motionSkip = 1 ∧
      ((visitFigure 4 (figured 4 .homing start)).figures.read 4).state = .idle ∧
      member (told (fun g => { g with stall := some 0 }) 500).events.latches 16 = true ∧
      (told (fun g => { g with stall := some 0 }) 500).out.guard.map (fun f => (f.dest, f.payload)) = [(1, [4])] := by decide +kernel

/-- Slot 0 has just begun to list bells 7 and 8 and figure 4, or with `busy` false has just ended; strikes of both
bells are due. -/
def reassigned (busy : Bool) : Part :=
  let p := setSlot 0 (fun x => { x with
    state := if busy then .running else .idle
    copy := { x.copy with bells := 0x180, figures := [(4, { item := 0, role := .item })] } }) start
  let own := if busy then none else some 0
  setQueue [{ slot := 0, bell := 7, velocity := 1, fire := 0 }, { slot := 0, bell := 8, velocity := 1, fire := 0 }]
    { p with bellOwner := (p.bellOwner.update 7 fun _ => own).update 8 fun _ => own, figOwner := p.figOwner.update 4 fun _ => own }

theorem test_meets_ownership_changes :
    let gained := recompute (reassigned true)
    let gone := recompute (figured 4 .driven (reassigned false))
    gained.bellOwner.read 7 = some 0 ∧ gained.figOwner.read 4 ≠ (reassigned true).figOwner.read 4 ∧
      (gained.figures.read 4).state = .driven ∧ gone.bellOwner.read 8 = none ∧
      gone.figOwner.read 4 ≠ (reassigned false).figOwner.read 4 ∧ (gone.figures.read 4).state = .homing ∧
      (reassigned false).strikes.queue.head?.any (fun e => e.bell = 7) = true := by decide +kernel

theorem test_strikes_of_bells_lost_together_are_all_withdrawn :
    (recompute (reassigned false)).strikes.queue = [] ∧ (recompute (reassigned false)).out.strike = [] := by decide +kernel

theorem test_a_started_show_lists_a_figure_and_its_twin :
    let p := stored [(1136, 0x01000001), (1141, 0x0307D000), (2000, 0x02000000), (280, 0x01030004)] showHeld
    ((after .showStart (asking [8, 2, 31, 0] p)).slots.read 2).copy.figures =
      [(3, { item := 0, role := .item }), (4, { item := 0, role := .twin })] := by decide +kernel

theorem test_meets_a_pending_start_that_an_all_stop_discards :
    let w : PendingStart := { showIx := 0, source := .timer, rank := 0, hour := none, trigger := 0, expiry := 1000 }
    let p := setSlot 2 (fun x => { x with waiting := some w }) (tripped 4 .allStop true (running start))
    let q := after (.guardAssertion 4) (state p)
    (p.slots.read 2).waiting.isSome = true ∧ (p.guard.lines.read 4).asserted = false ∧ member q.events.latches 24 = true ∧
      member q.events.repeats 24 = false ∧ member q.events.latches 23 = false := by decide +kernel

theorem test_an_attention_frame_is_appended_or_lost :
    let packed := setOut (fun o => { o with report := List.replicate 16 stray }) start
    16 ≤ packed.out.report.length ∧ (latchEvent 31 packed).counts.replyDrop = 1 ∧
      (latchEvent 31 start).out.report.map Frame.payload = [[0x80, 0, 0, 0, 0, 0, 0, 0]] := by decide +kernel

theorem test_meets_bells_mapped_to_a_report :
    let p := (coilWaits (coil 3)).part
    ((readBell 7 [0] p).1.map fun r => (r.node, r.channel)) = some (14, 3) ∧
      ((readBell 7 [0, 2] p).1.map BellRecord.heatLimit) = some 10000 ∧
      (scanBells 14 3 true allBells p).1 = some (7, 10000) := by decide +kernel

theorem test_a_ready_transmitter_chooses_first :
    let p := setOut (fun o => { o with report := [stray], motion := [⟨3, stray⟩] })
      { start with events := { start.events with stop := { start.events.stop with pulseEnd := some 0 } } }
    dueCommands p = [.uplineTransmitStart, .downlineTransmitStart, .pulseEnd .stop] ∧
      tickCommands (atTime 1 start) = [.guardInputSample 0xFF, .uplineTransmitStart, .downlineTransmitStart] := by decide +kernel

/-- A sweep of show 31 at a place, its entry naming a barrel at word 2,000 and figure 3 with a path at word 2,010. -/
def sweeping (at_ : SweepPosition) (header : List (Option Word)) (p : Part) : Part :=
  let entry : List (Option Word) := [some 0x01000001, some 0, some 0x07D00000, some 0, some 0, some 0x0307DA00] ++
    List.replicate 10 (some 0)
  let x := { VerifySweep.initial with position := at_, entry := entry, header := header }
  { p with verify := { result := VerifyResult.begun 31, sweep := x } }

theorem test_meets_every_place_of_the_sweep :
    let x := fun place => (sweeping place [some 0x01010008, some 0x00640002] start).verify
    (x (.entry 0)).result.state = .inProgress ∧ (x (.entry 0)).sweep.position = .entry 0 ∧ (x (.entry 15)).sweep.position = .entry 15 ∧
      (x (.header 0)).sweep.barrelPointer = some 2000 ∧ (sweeping (.header 1) [none] start).verify.sweep.header = [none] ∧
      (sweeping (.header 1) [some 0x01010008] start).verify.sweep.header = [some 0x01010008] ∧
      (x (.rowMap 0)).sweep.position = .rowMap 0 ∧ (x (.row 0 1)).sweep.position = .row 0 1 ∧
      (x (.figure 0 7)).sweep.itemFigure 0 = some 3 ∧ (x (.pathHeader 0)).sweep.pathPointer 0 = some 2010 ∧
      (x (.keyframe 0 1)).sweep.position = .keyframe 0 1 := by decide +kernel

theorem test_a_sweep_records_what_it_finds :
    let first := fun p => (sweepRead p).verify.result.first
    first (sweeping (.header 1) [some 0x01010008] start) = some (.spanTooSmall, 2001) ∧
      first (sweeping (.pathHeader 0) [] start) = some (.keyframeCount, 2010) ∧
      first (sweeping (.rowMap 0) [some 0x01010008, some 0x00640002] (stored [(2002, 0x30000000)] start)) = some (.bellAbove47, 2002) ∧
      (sweepRead (sweeping (.figure 0 7) [] start)).verify.sweep.position = .pathHeader 0 := by decide +kernel

theorem test_meets_a_bound_timer_at_the_top_and_an_unlisted_action :
    let top := setTimer 7 (fun t => { t with count := 16777215, binding := some (2, 31) }) showHeld
    let s := asking [15, 7, 2, 0, 0, 0] top
    Waiting .timerControl (ask [15, 7, 2, 0, 0, 0]) [] s ∧ (s.part.cal.timers.read 7).run = false ∧
      (s.part.cal.timers.read 7).binding = some (2, 31) ∧ ((after .timerStep s).slots.read 2).state = .running ∧
      Waiting .timerControl (ask [15, 7, 6, 0, 0, 0]) [] (asking [15, 7, 6, 0, 0, 0] top) ∧
      reply (after .timerStop (asking [15, 7, 6, 0, 0, 0] top)) = [15, 3, 255, 255, 255, 0, 0, 0, 0, 2, 31] := by decide +kernel

theorem test_meets_a_show_start_with_a_barrel :
    let p := stored [(1138, 0x07D00000), (2000, 0x01010008), (2001, 0x00640002), (2002, 0x07000000)] showHeld
    let q := after .showStart (asking [8, 2, 31, 0] p)
    passes (checkShow 31 (asking [8, 2, 31, 0] p).part).1 = true ∧ (q.contexts.read 2).start = 2000 ∧
      (q.contexts.read 2).rowMap = [7] ∧ (q.contexts.read 2).lastStep = 7 ∧ member q.events.latches 22 = true ∧
      (after .showStart (asking [8, 2, 31, 0] showHeld)).contexts.read 2 = BarrelContext.silent := by decide +kernel

theorem test_meets_candidates_of_a_wrapping_range :
    let w : Nat → Word := fun k => [(0x01020106 : Word), 0x06010000, 0xFFFFFF1F, 0x01000000].getD k 0
    let at_ := fun (month day : Nat) => { DateTime.first with year := 2024, month := month, day := day }
    let monday := at_ 1 1
    monday.possible = true ∧ monday.weekday = 0 ∧ (calendarEntry w).candidate 0 monday = false ∧
      (calendarEntry fun k => [(0x010C1401 : Word), 0x06010000, 0xFFFFFF1F, 0x01000000].getD k 0).candidate 0 monday = true ∧
      (calendarEntry fun k => [(0x010C1401 : Word), 0x06010000, 0xFFFFFF1F, 0x01000000].getD k 0).candidate 0 (at_ 1 8) = false := by decide +kernel

end Sys2Proof.Tests
end

section
/-! Proofs of the statements on SHOW_RESUME (R35) and SHOW_STOP (R36): what each request does in each state of
the slot it names, and that a resume lets slot time go on from the hold. -/

namespace Sys2Proof.Machine

/-! ## Slots -/

/-- An update of a slot's record is known by what it makes of the record the slot has. -/
theorem setSlot_congr {i : SlotIx} {f g : Slot → Slot} {p : Part} (h : f (p.slots.read i) = g (p.slots.read i)) :
    setSlot i f p = setSlot i g p := by
  have : p.slots.update i f = p.slots.update i g := by
    apply Bank.ext_read
    intro j
    simp only [Bank.read_update, h]
  simp only [setSlot, this]

theorem Slot.busy_iff (r : Slot) : r.busy = true ↔ r.state ≠ .idle := by simp [Slot.busy]

/-- R35: the held interval of a slot that has a hold instant is measured from that instant. -/
theorem Slot.resumed_of_hold {r : Slot} {h : Nat} (hh : r.hold = some h) (now : Nat) :
    r.resumed now = { r with state := .running, origin := r.origin + (now - h), hold := none } := by
  simp [Slot.resumed, hh]

/-- R22, R35: at the instant of the resume slot time is what it was while HELD. -/
theorem Slot.time_resumed {r : Slot} {h now : Nat} (hs : r.state = .held) (hh : r.hold = some h) (hle : h ≤ now) :
    (r.resumed now).time now = r.time now := by
  have running : (r.resumed now).time now = now - (r.origin + (now - h)) := by
    rw [Slot.resumed_of_hold hh]
    rfl
  have held : r.time now = h - r.origin := by simp [Slot.time, hs, hh]
  omega

/-! ## SHOW RESUME (R35) -/

theorem showResumeRequest_noSlot {e : IntakeEntry} (h : 3 ≤ e.frame.arg 1) (p : Part) :
    showResumeRequest e p = answer e .range [] p := by
  simp only [showResumeRequest, index?_beyond h]

theorem showResumeRequest_notHeld {e : IntakeEntry} {i : SlotIx} {p : Part} (hi : e.frame.arg 1 = i.val)
    (h : (p.slots.read i).state ≠ .held) : showResumeRequest e p = answer e .state [] p := by
  simp only [showResumeRequest, hi, index?_val, if_neg h]

theorem showResumeRequest_held {e : IntakeEntry} {i : SlotIx} {p : Part} (hi : e.frame.arg 1 = i.val)
    (h : (p.slots.read i).state = .held) :
    showResumeRequest e p =
      answer e .done [] (endShow i (readDueSteps i (setSlot i (·.resumed p.lineTime) p))) := by
  simp only [showResumeRequest, hi, index?_val, if_pos h]

theorem exec_showResume_waiting {s : State} {e : IntakeEntry} {rest : List IntakeEntry}
    (h : Waiting .showResume e rest s) :
    exec .showResume s = .next (s.withPart (showResumeRequest e (setManagement rest s.part))) :=
  onRequest_waiting .showResume showResumeRequest s e rest h

/-- Settles O23: each answer of the request is that of `showResumeRequest` in the slot's state, and slot time
goes on by `Slot.time_resumed`. -/
theorem showResumeContinuesTheSlot : Obligations.ShowResumeContinuesTheSlot := by
  intro s e rest hw p
  rw [show exec .showResume s = .next (s.withPart (showResumeRequest e p)) from exec_showResume_waiting hw]
  refine ⟨fun hr => ?_, fun i hi => ⟨fun hs => ?_, fun h hs hh hle => ?_⟩⟩
  · rw [showResumeRequest_noSlot hr]
  · rw [showResumeRequest_notHeld (p := p) hi hs]
  · intro q
    have resumed : setSlot i (·.resumed p.lineTime) p = q := setSlot_congr (p := p) (Slot.resumed_of_hold hh _)
    refine ⟨by rw [showResumeRequest_held (p := p) hi hs, resumed], ?_⟩
    have slot : q.slots.read i = (s.part.slots.read i).resumed s.part.lineTime := by
      rw [← resumed]
      exact Bank.read_update_self _ _ _
    rw [slot]
    exact Slot.time_resumed hs hh hle

/-! ## SHOW STOP (R36) -/

theorem showStopRequest_noSlot {e : IntakeEntry} (h : 3 ≤ e.frame.arg 1) (p : Part) :
    showStopRequest e p = answer e .range [] p := by
  simp only [showStopRequest, index?_beyond h]

theorem showStopRequest_idle {e : IntakeEntry} {i : SlotIx} {p : Part} (hi : e.frame.arg 1 = i.val)
    (h : (p.slots.read i).state = .idle) : showStopRequest e p = answer e .done [] p := by
  simp [showStopRequest, hi, index?_val, Slot.busy_iff, h]

theorem showStopRequest_busy {e : IntakeEntry} {i : SlotIx} {p : Part} (hi : e.frame.arg 1 = i.val)
    (h : (p.slots.read i).state ≠ .idle) :
    showStopRequest e p = answer e .done [] (stopShow i (e.frame.arg 2 ≠ 0) p) := by
  simp only [showStopRequest, hi, index?_val, if_pos ((Slot.busy_iff _).mpr h)]

theorem stopShow_discard (i : SlotIx) (p : Part) :
    stopShow i true p = setSlot i (fun x => { x with waiting := none }) (idleSlot i p) := by
  simp [stopShow]

theorem stopShow_keep (i : SlotIx) (p : Part) : stopShow i false p = considerPending i (idleSlot i p) := by
  simp [stopShow]

theorem exec_showStop_waiting {s : State} {e : IntakeEntry} {rest : List IntakeEntry} (h : Waiting .showStop e rest s) :
    exec .showStop s = .next (s.withPart (showStopRequest e (setManagement rest s.part))) :=
  onRequest_waiting .showStop showStopRequest s e rest h

/-- Settles O24: each answer of the request is that of `showStopRequest` in the slot's state, and the discard
option chooses between `stopShow_discard` and `stopShow_keep`. -/
theorem showStopIdlesTheSlot : Obligations.ShowStopIdlesTheSlot := by
  intro s e rest hw p
  rw [show exec .showStop s = .next (s.withPart (showStopRequest e p)) from exec_showStop_waiting hw]
  refine ⟨fun hr => ?_, fun i hi => ⟨fun hs => ?_, fun hs => ⟨fun discard => ?_, fun keep => ?_⟩⟩⟩
  · rw [showStopRequest_noSlot hr]
  · rw [showStopRequest_idle (p := p) hi hs]
  · rw [showStopRequest_busy (p := p) hi hs, decide_eq_true discard, stopShow_discard, idleSlot]
  · rw [showStopRequest_busy (p := p) hi hs, decide_eq_false (not_not_intro keep), stopShow_keep, idleSlot]

end Sys2Proof.Machine
end

section
/-! Proofs of the statements on BELL_SERVICE (R77): what the request answers for each bell and setting, and what
withdrawing a bell (R73) makes of the strike queue. -/

namespace Sys2Proof.Machine

/-! ## Withdrawing a bell (R65, R73) -/

/-- R73: a withdrawal in terms of the entries it keeps and of the head it meets. -/
theorem withdrawBell_eq (b : BellIx) (p : Part) :
    withdrawBell b p =
      if p.strikes.queue.head?.any (fun x => x.bell = b) then
        releaseDue (setQueue (p.strikes.queue.filter fun x => x.bell ≠ b) p)
      else setQueue (p.strikes.queue.filter fun x => x.bell ≠ b) p := by
  simp only [withdrawBell, removeStrikes, ne_eq, decide_not]

/-! ## BELL SERVICE (R77) -/

theorem bellServiceRequest_noBell {e : IntakeEntry} (h : 48 ≤ e.frame.arg 1) (p : Part) :
    bellServiceRequest e p = answer e .range [] p := by
  simp only [bellServiceRequest, index?_beyond h]

/-- R77: a setting other than IN and OUT is refused, whether or not the bell exists. -/
theorem bellServiceRequest_noSetting {e : IntakeEntry} (h : 2 ≤ e.frame.arg 2) (p : Part) :
    bellServiceRequest e p = answer e .range [] p := by
  unfold bellServiceRequest
  split
  next hs => omega
  next hs => omega
  next => rfl

theorem bellServiceRequest_in {e : IntakeEntry} {b : BellIx} (hb : e.frame.arg 1 = b.val) (h : e.frame.arg 2 = 0)
    (p : Part) :
    bellServiceRequest e p = answer e .done [0] (setBell b (fun x => { x with health := .inService }) p) := by
  simp only [bellServiceRequest, hb, index?_val, h, Health.code]

theorem bellServiceRequest_out {e : IntakeEntry} {b : BellIx} (hb : e.frame.arg 1 = b.val) (h : e.frame.arg 2 = 1)
    (p : Part) :
    bellServiceRequest e p =
      answer e .done [2] (withdrawBell b (setBell b (fun x => { x with health := .outManual }) p)) := by
  simp only [bellServiceRequest, hb, index?_val, h, Health.code]

theorem exec_bellService_waiting {s : State} {e : IntakeEntry} {rest : List IntakeEntry}
    (h : Waiting .bellService e rest s) :
    exec .bellService s = .next (s.withPart (bellServiceRequest e (setManagement rest s.part))) :=
  onRequest_waiting .bellService bellServiceRequest s e rest h

/-- Settles O31: each answer is that of `bellServiceRequest` for the bell and the setting, and the withdrawal of
an OUT is written out by `withdrawBell_eq`; neither taking the request nor the new health touches the strike queue. -/
theorem bellServiceSetsTheHealth : Obligations.BellServiceSetsTheHealth := by
  intro s e rest hw p
  rw [show exec .bellService s = .next (s.withPart (bellServiceRequest e p)) from exec_bellService_waiting hw]
  refine ⟨fun refused => ?_, fun b hb => ⟨fun isIn => ?_, fun isOut => ?_⟩⟩
  · rcases refused with noBell | noSetting
    · rw [bellServiceRequest_noBell noBell]
    · rw [bellServiceRequest_noSetting noSetting]
  · rw [bellServiceRequest_in hb isIn]
  · intro q
    have queue : (setBell b (fun x => { x with health := .outManual }) p).strikes.queue = s.part.strikes.queue := by
      simp [p]
    rw [bellServiceRequest_out hb isOut, withdrawBell_eq, queue]

end Sys2Proof.Machine
end

section
/-! Proofs of the statements on FILTER_WRITE, MASK_WRITE and FILTER_READ (R138) and on FILTER_ENABLE (R139): what
each request answers for each index, code and setting, and when a mask is in use. -/

namespace Sys2Proof

/-! ## Banks and parameters -/

/-- An update whose function keeps the record it meets changes nothing. -/
theorem Bank.update_of_fixed {α : Type} {n : Nat} {b : Bank α n} {i : Fin n} {f : α → α} (h : f (b.read i) = b.read i) :
    b.update i f = b := by
  apply Bank.ext_read
  intro j
  rw [Bank.read_update]
  split
  next isHere => rw [h, isHere]
  next => rfl

/-- A parameter is not 0 as a number exactly when its byte is not 0. -/
theorem Frame.arg_ne_zero_iff (f : Frame) (k : Nat) : f.arg k ≠ 0 ↔ f.payload.getD k 0 ≠ 0 := by
  rw [Frame.arg, ne_eq, ne_eq, ← BitVec.toNat_inj]
  rfl

end Sys2Proof

namespace Sys2Proof.Machine

/-! ## Codes of a filter (R138) -/

theorem Direction.ofCode_beyond {n : Nat} (h : 3 ≤ n) : Direction.ofCode n = none := by
  unfold Direction.ofCode
  split
  case h_4 => rfl
  all_goals omega

theorem Action.ofCode_beyond {n : Nat} (h : 6 ≤ n) : Action.ofCode n = none := by
  unfold Action.ofCode
  split
  case h_7 => rfl
  all_goals omega

/-! ## FILTER WRITE (R138) -/

/-- R138: one parameter beyond its values is enough for the refusal, whatever the others are. -/
theorem filterWriteRequest_beyond {e : IntakeEntry}
    (h : 32 ≤ e.frame.arg 1 ∨ 3 ≤ e.frame.arg 2 ∨ 4 ≤ e.frame.arg 8 ∨ 6 ≤ e.frame.arg 9) (p : Part) :
    filterWriteRequest e p = answer e .range [] p := by
  unfold filterWriteRequest
  split
  next hi hd hm ha =>
    rcases h with noFilter | noDirection | noMask | noAction
    · simp [index?_beyond noFilter] at hi
    · simp [Direction.ofCode_beyond noDirection] at hd
    · simp [index?_beyond noMask] at hm
    · simp [Action.ofCode_beyond noAction] at ha
  next => rfl

theorem filterWriteRequest_within {e : IntakeEntry} {i : FilterIx} {d : Direction} {m : Fin 4} {act : Action}
    (hi : e.frame.arg 1 = i.val) (hd : Direction.ofCode (e.frame.arg 2) = some d) (hm : e.frame.arg 8 = m.val)
    (ha : Action.ofCode (e.frame.arg 9) = some act) (p : Part) :
    filterWriteRequest e p =
      if (p.filter.filters.read i).enabled then answer e .enabled [] p
      else answer e .done [] (setFilter i (fun _ => filterOf e.frame d m act) p) := by
  simp only [filterWriteRequest, hi, hd, hm, ha, index?_val]

/-- R138: the contents of a FILTER WRITE, with its two flags read from the bytes themselves. -/
theorem filterOf_eq (f : Frame) (d : Direction) (m : Fin 4) (act : Action) :
    filterOf f d m act =
      { enabled := false, direction := d, dest := f.payload.getD 3 0, self := f.payload.getD 4 0 ≠ 0
        source := f.payload.getD 5 0, kind := f.payload.getD 6 0, selector := f.payload.getD 7 0, mask := m
        action := act, forward := f.payload.getD 10 0 ≠ 0 } := by
  simp only [filterOf, Frame.arg_ne_zero_iff]

theorem exec_filterWrite_waiting {s : State} {e : IntakeEntry} {rest : List IntakeEntry}
    (h : Waiting .filterWrite e rest s) :
    exec .filterWrite s = .next (s.withPart (filterWriteRequest e (setManagement rest s.part))) :=
  onRequest_waiting .filterWrite filterWriteRequest s e rest h

/-! ## MASK WRITE (R138) -/

theorem maskInUse_iff (m : Fin 4) (p : Part) :
    maskInUse m p = true ↔ ∃ i, (p.filter.filters.read i).enabled = true ∧ (p.filter.filters.read i).mask = m := by
  simp only [maskInUse, List.any_eq_true, Bank.mem_toList, Bool.and_eq_true, decide_eq_true_eq]
  constructor
  · rintro ⟨_, ⟨i, rfl⟩, selects⟩
    exact ⟨i, selects⟩
  · rintro ⟨i, selects⟩
    exact ⟨_, ⟨i, rfl⟩, selects⟩

theorem maskWriteRequest_beyond {e : IntakeEntry} (h : 4 ≤ e.frame.arg 1) (p : Part) :
    maskWriteRequest e p = answer e .range [] p := by
  simp only [maskWriteRequest, index?_beyond h]

theorem maskWriteRequest_within {e : IntakeEntry} {m : Fin 4} (hm : e.frame.arg 1 = m.val) (p : Part) :
    maskWriteRequest e p =
      if maskInUse m p then answer e .enabled [] p
      else answer e .done [] (setFilterUnit (fun u => { u with masks := u.masks.update m fun _ => maskOf e.frame }) p) := by
  simp only [maskWriteRequest, hm, index?_val]

theorem exec_maskWrite_waiting {s : State} {e : IntakeEntry} {rest : List IntakeEntry} (h : Waiting .maskWrite e rest s) :
    exec .maskWrite s = .next (s.withPart (maskWriteRequest e (setManagement rest s.part))) :=
  onRequest_waiting .maskWrite maskWriteRequest s e rest h

/-! ## FILTER READ (R138) -/

theorem filterReadRequest_beyond {e : IntakeEntry} (h : 32 ≤ e.frame.arg 1) (p : Part) :
    filterReadRequest e p = answer e .range [] p := by
  simp only [filterReadRequest, index?_beyond h]

theorem filterReadRequest_within {e : IntakeEntry} {i : FilterIx} (hi : e.frame.arg 1 = i.val) (p : Part) :
    filterReadRequest e p =
      answer e .done (filterBytes (p.filter.filters.read i) (p.filter.masks.read (p.filter.filters.read i).mask)) p := by
  simp only [filterReadRequest, hi, index?_val]

theorem exec_filterRead_waiting {s : State} {e : IntakeEntry} {rest : List IntakeEntry}
    (h : Waiting .filterRead e rest s) :
    exec .filterRead s = .next (s.withPart (filterReadRequest e (setManagement rest s.part))) :=
  onRequest_waiting .filterRead filterReadRequest s e rest h

/-- Settles O48: each answer is that of the request's own function; `filterOf_eq` writes out a filter's new
contents, and `maskInUse_iff` says which filters keep a mask from being replaced. Taking the request touches no
filter. -/
theorem filtersAndMasksAreWrittenAndRead : Obligations.FiltersAndMasksAreWrittenAndRead := by
  intro s e rest p a b
  have filters : p.filter.filters = s.part.filter.filters := rfl
  refine ⟨fun hw => ?write, fun hw => ?mask, fun hw => ?read⟩
  case write =>
    rw [show exec .filterWrite s = .next (s.withPart (filterWriteRequest e p)) from exec_filterWrite_waiting hw]
    refine ⟨fun beyond => ?_, fun i d m act hi hd hm ha => ⟨fun on => ?_, fun off => ?_⟩⟩
    · rw [filterWriteRequest_beyond beyond]
    · rw [filterWriteRequest_within hi hd hm ha, filters, if_pos on]
    · rw [filterWriteRequest_within hi hd hm ha, filters, if_neg (Bool.eq_false_iff.mp off), setFilter, filterOf_eq]
  case mask =>
    rw [show exec .maskWrite s = .next (s.withPart (maskWriteRequest e p)) from exec_maskWrite_waiting hw]
    refine ⟨fun beyond => ?_, fun m hm => ⟨fun selected => ?_, fun free => ?_⟩⟩
    · rw [maskWriteRequest_beyond beyond]
    · have inUse : maskInUse m p = true := (maskInUse_iff m p).mpr selected
      rw [maskWriteRequest_within hm, if_pos inUse]
    · have notInUse : ¬ maskInUse m p = true := by
        rw [maskInUse_iff]
        rintro ⟨i, on, selects⟩
        exact free i on selects
      rw [maskWriteRequest_within hm, if_neg notInUse, maskOf]
  case read =>
    rw [show exec .filterRead s = .next (s.withPart (filterReadRequest e p)) from exec_filterRead_waiting hw]
    refine ⟨fun beyond => ?_, fun i hi => ?_⟩
    · rw [filterReadRequest_beyond beyond]
    · rw [filterReadRequest_within hi]
      rfl

/-! ## FILTER ENABLE (R139) -/

theorem filterEnableRequest_noFilter {e : IntakeEntry} (h : 32 ≤ e.frame.arg 1) (p : Part) :
    filterEnableRequest e p = answer e .range [] p := by
  simp only [filterEnableRequest, index?_beyond h]

/-- R139: a setting other than 0 and 1 is refused, whether or not the filter exists. -/
theorem filterEnableRequest_noSetting {e : IntakeEntry} (h : 2 ≤ e.frame.arg 2) (p : Part) :
    filterEnableRequest e p = answer e .range [] p := by
  unfold filterEnableRequest
  split
  next isOff => omega
  next isOn => omega
  next => rfl

theorem filterEnableRequest_within {e : IntakeEntry} {i : FilterIx} {on : Bool} (hi : e.frame.arg 1 = i.val)
    (hon : e.frame.arg 2 = if on then 1 else 0) (p : Part) :
    filterEnableRequest e p = answer e .done [] (setFilter i (fun x => { x with enabled := on }) p) := by
  cases on with
  | false => simp only [filterEnableRequest, hi, index?_val, hon, Bool.false_eq_true, if_false]
  | true => simp only [filterEnableRequest, hi, index?_val, hon, if_true]

/-- R139: setting a filter to the state it already has changes nothing. -/
theorem setFilter_enabled_same {i : FilterIx} {on : Bool} {p : Part} (h : (p.filter.filters.read i).enabled = on) :
    setFilter i (fun x => { x with enabled := on }) p = p := by
  have kept : p.filter.filters.update i (fun x => { x with enabled := on }) = p.filter.filters :=
    Bank.update_of_fixed (by rw [← h])
  simp only [setFilter, setFilterUnit, kept]

theorem exec_filterEnable_waiting {s : State} {e : IntakeEntry} {rest : List IntakeEntry}
    (h : Waiting .filterEnable e rest s) :
    exec .filterEnable s = .next (s.withPart (filterEnableRequest e (setManagement rest s.part))) :=
  onRequest_waiting .filterEnable filterEnableRequest s e rest h

/-- Settles O49: each answer is that of `filterEnableRequest` for the index and the setting, and a setting the
filter already has is `setFilter_enabled_same`. -/
theorem filterEnableSetsTheFlag : Obligations.FilterEnableSetsTheFlag := by
  intro s e rest hw p
  rw [show exec .filterEnable s = .next (s.withPart (filterEnableRequest e p)) from exec_filterEnable_waiting hw]
  refine ⟨fun refused => ?_, fun i on hi hon => ⟨?_, fun same => ?_⟩⟩
  · rcases refused with noFilter | noSetting
    · rw [filterEnableRequest_noFilter noFilter]
    · rw [filterEnableRequest_noSetting noSetting]
  · rw [filterEnableRequest_within hi hon, setFilter]
  · exact setFilter_enabled_same (p := p) same

end Sys2Proof.Machine
end

section
/-! Proofs of the statement on QUEUE_FLUSH (R148, R149): what the request answers for each queue code, and which
flush is refused while figures move. -/

namespace Sys2Proof.Machine

theorem QueueName.ofCode_beyond {n : Nat} (h : 5 < n) : QueueName.ofCode n = none := by
  unfold QueueName.ofCode
  split
  case h_7 => rfl
  all_goals omega

theorem queueFlushRequest_noQueue {e : IntakeEntry} (h : 5 < e.frame.arg 1) (p : Part) :
    queueFlushRequest e p = answer e .range [] p := by
  simp only [queueFlushRequest, QueueName.ofCode_beyond h]

/-- R148: code 2 names OQ-MOTION, which is not flushed while a figure moves. -/
theorem queueFlushRequest_motionMoving {e : IntakeEntry} {p : Part} (h : e.frame.arg 1 = 2)
    (moving : figuresMoving p = true) : queueFlushRequest e p = answer e .state [] p := by
  simp [queueFlushRequest, h, QueueName.ofCode, moving]

/-- R148, R149: any other flush is carried out; one of OQ-STRIKE lets due strikes be released. -/
theorem queueFlushRequest_allowed {e : IntakeEntry} {name : QueueName} {p : Part}
    (h : QueueName.ofCode (e.frame.arg 1) = some name) (still : name = .motion → figuresMoving p = false) :
    queueFlushRequest e p =
      answer e .done [BitVec.ofNat 8 (e.frame.arg 1), BitVec.ofNat 8 (p.out.lengthOf name)]
        (if name = .strike then releaseDue (setOut (·.flush name) p) else setOut (·.flush name) p) := by
  have notRefused : ¬ (decide (name = .motion) && figuresMoving p) = true := by simpa using still
  simp only [queueFlushRequest, h, if_neg notRefused]

theorem exec_queueFlush_waiting {s : State} {e : IntakeEntry} {rest : List IntakeEntry}
    (h : Waiting .queueFlush e rest s) :
    exec .queueFlush s = .next (s.withPart (queueFlushRequest e (setManagement rest s.part))) :=
  onRequest_waiting .queueFlush queueFlushRequest s e rest h

/-- Settles O14: each answer is that of `queueFlushRequest` for the code and the figures; taking the request
touches neither the figures nor the outbound queues. -/
theorem queueFlushEmptiesOneQueue : Obligations.QueueFlushEmptiesOneQueue := by
  intro s e rest hw p
  have figures : figuresMoving p = figuresMoving s.part := rfl
  have out : p.out = s.part.out := setManagement_out rest s.part
  rw [show exec .queueFlush s = .next (s.withPart (queueFlushRequest e p)) from exec_queueFlush_waiting hw, ← figures,
    ← out]
  refine ⟨fun noQueue => ?_, fun isMotion moving => ?_, fun name named still => ?_⟩
  · rw [queueFlushRequest_noQueue noQueue]
  · rw [queueFlushRequest_motionMoving isMotion moving]
  · rw [queueFlushRequest_allowed named still]

end Sys2Proof.Machine
end

section
/-! Proofs of the statements on TABLE_WRITE (R164, R153) and TABLE_READ (R165): the words that a payload's bytes
spell, which addresses lie within table memory, and what each request answers and leaves in the words. -/

namespace Sys2Proof.Machine

/-! ## The words a payload spells (R164) -/

theorem toNat_append_byte {n : Nat} (x : BitVec n) (b : Byte) : (x ++ b).toNat = x.toNat * 256 + b.toNat := by
  rw [BitVec.toNat_append, ← Nat.shiftLeft_add_eq_or_of_lt b.isLt, Nat.shiftLeft_eq]

theorem append_bytes_eq_ofNat (a b c d : Byte) :
    (a ++ b ++ c ++ d : Word) =
      BitVec.ofNat 32 (((a.toNat * 256 + b.toNat) * 256 + c.toNat) * 256 + d.toNat) := by
  rw [← toNat_append_byte, ← toNat_append_byte, ← toNat_append_byte, BitVec.ofNat_toNat, BitVec.setWidth_eq]

/-- A list from which no word of four bytes can be taken has fewer than four. -/
theorem length_lt_four {bs : List Byte} (short : ∀ a b c d rest, bs = a :: b :: c :: d :: rest → False) :
    bs.length < 4 := by
  match bs with
  | [] | [_] | [_, _] | [_, _, _] => simp
  | a :: b :: c :: d :: rest => exact (short a b c d rest rfl).elim

theorem length_wordsOfBytes (bs : List Byte) : (wordsOfBytes bs).length = bs.length / 4 := by
  induction bs using wordsOfBytes.induct with
  | case1 a b c d rest ih =>
    simp only [wordsOfBytes, List.length_cons, ih]
    omega
  | case2 bs short => rw [wordsOfBytes.eq_2 bs short, List.length_nil, Nat.div_eq_of_lt (length_lt_four short)]

/-- The word at `k` is spelt by the four bytes from `4 * k`, most significant first. -/
theorem getD_wordsOfBytes (bs : List Byte) (k : Nat) (h : k < bs.length / 4) :
    (wordsOfBytes bs).getD k 0 = BitVec.ofNat 32
      ((((bs.getD (4 * k) 0).toNat * 256 + (bs.getD (4 * k + 1) 0).toNat) * 256 +
        (bs.getD (4 * k + 2) 0).toNat) * 256 + (bs.getD (4 * k + 3) 0).toNat) := by
  induction bs using wordsOfBytes.induct generalizing k with
  | case1 a b c d rest ih =>
    cases k with
    | zero => exact append_bytes_eq_ofNat a b c d
    | succ k =>
      simp only [List.length_cons] at h
      rw [wordsOfBytes, List.getD_cons_succ, ih k (by omega)]
      rfl
  | case2 bs short =>
    have := length_lt_four short
    omega

theorem length_writtenWords (f : Frame) : (writtenWords f).length = (f.payload.length - 3) / 4 := by
  rw [writtenWords, length_wordsOfBytes, List.length_drop]

theorem getD_writtenWords (f : Frame) (k : Nat) (h : k < (f.payload.length - 3) / 4) :
    (writtenWords f).getD k 0 = BitVec.ofNat 32
      (((f.arg (3 + 4 * k) * 256 + f.arg (4 + 4 * k)) * 256 + f.arg (5 + 4 * k)) * 256 + f.arg (6 + 4 * k)) := by
  have byte : ∀ i, (f.payload.drop 3).getD i 0 = f.payload.getD (3 + i) 0 := by
    intro i
    simp only [List.getD_eq_getElem?_getD, List.getElem?_drop]
  rw [writtenWords, getD_wordsOfBytes _ k (by rwa [List.length_drop])]
  simp only [byte, Frame.arg, ← Nat.add_assoc, Nat.add_right_comm 3, Nat.reduceAdd]

/-! ## TABLE WRITE (R164) -/

/-- Words at consecutive addresses lie within table memory when the last one does. -/
theorem withinTable_iff (base count : Nat) : withinTable base count = true ↔ base + count - 1 ≤ 16383 := by
  rw [withinTable, decide_eq_true_iff, lastTableWord]
  omega

theorem not_withinTable_iff (base count : Nat) : ¬ withinTable base count = true ↔ 16383 < base + count - 1 := by
  rw [withinTable_iff, not_le]

theorem tableWriteRequest_beyond {e : IntakeEntry}
    (h : ¬ withinTable (e.frame.number 1 2) (writtenWords e.frame).length = true) (p : Part) :
    tableWriteRequest e p = answer e .range [] p := by
  simp only [tableWriteRequest, if_neg h]

theorem tableWriteRequest_within {e : IntakeEntry}
    (h : withinTable (e.frame.number 1 2) (writtenWords e.frame).length = true) (p : Part) :
    tableWriteRequest e p = answer e .done [] (writeTable (e.frame.number 1 2) (writtenWords e.frame) p) := by
  simp only [tableWriteRequest, if_pos h]

theorem exec_tableWrite_waiting {s : State} {e : IntakeEntry} {rest : List IntakeEntry}
    (h : Waiting .tableWrite e rest s) :
    exec .tableWrite s = .next (s.withPart (tableWriteRequest e (setManagement rest s.part))) :=
  onRequest_waiting .tableWrite tableWriteRequest s e rest h

/-- Settles O44: the request's words are those its bytes spell (`getD_writtenWords`), and `wordAt_writeWords` says
what writing them makes of every word of a memory in its canonical form. -/
theorem tableWriteWritesItsWords : Obligations.TableWriteWritesItsWords := by
  intro s e rest hw canonical p base count word
  have ⟨_, _, _, suits⟩ := hw
  have length : 7 ≤ e.frame.payload.length := by
    simp only [Request.lengthSuits, decide_eq_true_eq] at suits
    exact suits.2.1
  have address : e.frame.number 1 2 = base := number_two e.frame 1 (by omega)
  have counted : (writtenWords e.frame).length = count := length_writtenWords e.frame
  rw [show exec .tableWrite s = .next (s.withPart (tableWriteRequest e p)) from exec_tableWrite_waiting hw]
  refine ⟨fun beyond => ?_, fun fits => ⟨writeWords base (writtenWords e.frame) s.part.table.words, ?_, fun a => ?_⟩⟩
  · rw [tableWriteRequest_beyond (by rwa [address, counted, not_withinTable_iff])]
  · rw [tableWriteRequest_within (by rwa [address, counted, withinTable_iff]), address]
    rfl
  · rw [wordAt_writeWords base a _ _ canonical (by rw [counted, lastTableWord]; omega), counted]
    split
    next inRange => rw [getD_writtenWords e.frame (a - base) (by omega)]
    next => rfl

/-! ## TABLE READ (R165) -/

theorem readResult_eq (ws : List (Option Word)) : readResult ws = if none ∈ ws then .table else .done := by
  have readable : ws.all Option.isSome = true ↔ none ∉ ws := by
    simp only [List.all_eq_true, Option.isSome_iff_ne_none, ne_eq, List.forall_mem_ne']
  by_cases lost : none ∈ ws
  · rw [readResult, if_neg (by rwa [readable, not_not]), if_pos lost]
  · rw [readResult, if_pos (readable.mpr lost), if_neg lost]

theorem tableReadRequest_refused {e : IntakeEntry}
    (h : e.frame.arg 3 = 0 ∨ 7 < e.frame.arg 3 ∨ ¬ withinTable (e.frame.number 1 2) (e.frame.arg 3) = true)
    (p : Part) : tableReadRequest e p = answer e .range [] p := by
  have refused : ¬ (1 ≤ e.frame.arg 3 && e.frame.arg 3 ≤ 7 && withinTable (e.frame.number 1 2) (e.frame.arg 3)) = true := by
    simp only [Bool.and_eq_true, decide_eq_true_eq]
    rintro ⟨⟨least, most⟩, within⟩
    rcases h with noWords | many | beyond
    · omega
    · omega
    · exact beyond within
  simp only [tableReadRequest, if_neg refused]

theorem tableReadRequest_within {e : IntakeEntry} (least : 1 ≤ e.frame.arg 3) (most : e.frame.arg 3 ≤ 7)
    (within : withinTable (e.frame.number 1 2) (e.frame.arg 3) = true) (p : Part) :
    tableReadRequest e p =
      let r := readEach .management ((List.range (e.frame.arg 3)).map (e.frame.number 1 2 + ·)) p
      answer e (readResult r.1) (readBytes r.1) r.2 := by
  simp only [tableReadRequest, least, most, within, decide_true, Bool.and_self, if_true]

theorem exec_tableRead_waiting {s : State} {e : IntakeEntry} {rest : List IntakeEntry}
    (h : Waiting .tableRead e rest s) :
    exec .tableRead s = .next (s.withPart (tableReadRequest e (setManagement rest s.part))) :=
  onRequest_waiting .tableRead tableReadRequest s e rest h

/-- Settles O45: each answer is that of `tableReadRequest` for the count and the last address, with its result
written out by `readResult_eq`; a memory with no bit disturbed is read as `readEach_clean` says. -/
theorem tableReadReturnsTheWords : Obligations.TableReadReturnsTheWords := by
  intro s e rest hw p base count r
  have ⟨_, _, _, suits⟩ := hw
  have length : e.frame.payload.length = 4 := by simpa only [Request.lengthSuits, decide_eq_true_eq] using suits
  have address : e.frame.number 1 2 = base := number_two e.frame 1 (by omega)
  rw [show exec .tableRead s = .next (s.withPart (tableReadRequest e p)) from exec_tableRead_waiting hw]
  refine ⟨fun refused => ?_, fun least most fits => ⟨?_, fun clean => ?_⟩⟩
  · rw [← not_withinTable_iff] at refused
    rw [tableReadRequest_refused (by rwa [address])]
  · rw [tableReadRequest_within least most (by rwa [address, withinTable_iff]), address, ← readResult_eq]
    rfl
  · have inMemory : ∀ a ∈ (List.range count).map (base + ·), a ≤ lastTableWord := by
      intro a ha
      obtain ⟨k, hk, rfl⟩ := List.mem_map.mp ha
      have := List.mem_range.mp hk
      rw [lastTableWord]
      omega
    have read : r = _ := readEach_clean .management _ p clean inMemory
    rw [read, List.map_map]
    exact ⟨rfl, rfl⟩

end Sys2Proof.Machine
end

section
/-! What every step keeps, said once for every operation: `Kept p q` says that `q` meets each condition of Safety
that `p` meets. Operations of several blocks are shown to be of this kind by chaining their parts. -/

namespace Sys2Proof.Machine

/-- `q` meets each condition that `p` meets, the sums of the port counts left out. -/
structure Safe (p q : Part) : Prop where
  wf : p.table.wf = true → q.table.wf = true
  bounded : queuesBounded p → queuesBounded q
  mark : markBounded p.out → markBounded q.out
  ordered : strikesOrdered p → strikesOrdered q
  owned : strikesOwned p → strikesOwned q
  owners : ownersAgree p → ownersAgree q
  setpoints : setpointsInRange p → setpointsInRange q
  clock : clockSound p.cal → clockSound q.cal ∧ stampUpTo p.cal.stamp q.cal.stamp

/-- `q` meets each condition that `p` meets. -/
structure Kept (p q : Part) : Prop extends Safe p q where
  upSums : portSums p.up.counts → portSums q.up.counts
  downSums : portSums p.down.counts → portSums q.down.counts

/-! ## Chains -/

theorem stampUpTo_refl (a : Option DateTime) : stampUpTo a a := by
  cases a with
  | none => trivial
  | some x => exact Nat.le_refl _

theorem stampUpTo_trans {a b c : Option DateTime} (h : stampUpTo a b) (k : stampUpTo b c) : stampUpTo a c := by
  match a, b, c with
  | none, _, _ => trivial
  | some _, none, _ => exact h.elim
  | some _, some _, none => exact k.elim
  | some _, some _, some _ => exact Nat.le_trans h k

theorem Safe.trans {p q r : Part} (h : Safe p q) (k : Safe q r) : Safe p r where
  wf := k.wf ∘ h.wf
  bounded := k.bounded ∘ h.bounded
  mark := k.mark ∘ h.mark
  ordered := k.ordered ∘ h.ordered
  owned := k.owned ∘ h.owned
  owners := k.owners ∘ h.owners
  setpoints := k.setpoints ∘ h.setpoints
  clock hp := ⟨(k.clock (h.clock hp).1).1, stampUpTo_trans (h.clock hp).2 (k.clock (h.clock hp).1).2⟩

theorem Kept.refl (p : Part) : Kept p p where
  wf := id
  bounded := id
  mark := id
  ordered := id
  owned := id
  owners := id
  setpoints := id
  clock h := ⟨h, stampUpTo_refl _⟩
  upSums := id
  downSums := id

theorem Kept.trans {p q r : Part} (h : Kept p q) (k : Kept q r) : Kept p r where
  toSafe := h.toSafe.trans k.toSafe
  upSums := k.upSums ∘ h.upSums
  downSums := k.downSums ∘ h.downSums

/-- A fold of operations that keep the conditions keeps them. -/
theorem foldl_kept {α : Type} (f : Part → α → Part) (as : List α) (p : Part) (h : ∀ q a, Kept q (f q a)) :
    Kept p (as.foldl f p) := by
  induction as generalizing p with
  | nil => exact Kept.refl p
  | cons a rest ih => exact (h p a).trans (ih (f p a))

/-! ## Operations that carry the part -/

/-- An operation that leaves the blocks of `Carried` alone has five conditions left to keep. -/
theorem Carried.kept {p q : Part} (h : Carried p q) (bounded : queuesBounded p → queuesBounded q)
    (mark : markBounded p.out → markBounded q.out) (ordered : strikesOrdered p → strikesOrdered q)
    (owned : strikesOwned p → strikesOwned q) (setpoints : setpointsInRange p → setpointsInRange q) : Kept p q where
  wf hp := by rw [Table.wf, h.words]; exact hp
  bounded := bounded
  mark := mark
  ordered := ordered
  owned := owned
  owners hp := by unfold ownersAgree; rw [h.slots, h.bellOwner, h.figOwner]; exact hp
  setpoints := setpoints
  clock hp := by rw [h.cal]; exact ⟨hp, stampUpTo_refl _⟩
  upSums hp := by rw [h.up]; exact hp
  downSums hp := by rw [h.down]; exact hp

/-- Of an operation that also leaves the strike scheduler and the figures alone only the outbound queues are to be
looked at. -/
theorem Carried.kept_of_out {p q : Part} (h : Carried p q) (strikes : q.strikes = p.strikes) (figures : q.figures = p.figures)
    (bounded : queuesBounded p → queuesBounded q) (mark : markBounded p.out → markBounded q.out) : Kept p q :=
  h.kept bounded mark (by unfold strikesOrdered; rw [strikes]; exact id)
    (by unfold strikesOwned; rw [strikes, h.bellOwner]; exact id) (by unfold setpointsInRange; rw [figures]; exact id)

theorem Noted.kept {p q : Part} (h : Noted p q) : Kept p q := by
  refine h.carried.kept_of_out h.strikes h.figures ?_ ?_
  · rintro ⟨guard, strike, motion, passDn, report, rest⟩
    unfold queuesBounded
    rw [h.strikes, h.filter, h.out]
    exact ⟨guard, strike, motion, passDn, h.room report, rest⟩
  · rintro ⟨mark, free⟩
    rw [h.out]
    exact ⟨mark.trans h.grows.length_le, free⟩

/-! ## Setpoints -/

/-- R80: a signed number of sixteen bits. -/
def InRange (z : Int) : Prop := -32768 ≤ z ∧ z ≤ 32767

theorem setFigure_kept {k : FigIx} {f : LiveFigure → LiveFigure} {p : Part}
    (h : InRange (p.figures.read k).setpoint → InRange (f (p.figures.read k)).setpoint) : Kept p (setFigure k f p) := by
  refine (setFigure_carried k f p).kept id id id id fun hp j => ?_
  rw [setFigure_figures, Bank.read_update]
  split
  next => exact h (hp k)
  next => exact hp j

theorem signedHalf_inRange (w : Word) (h : Nat) : InRange (signedHalf (halfAt w h)) := by
  have : halfAt w h < 65536 := Nat.mod_lt _ (by decide)
  unfold InRange signedHalf
  split <;> omega

/-- R81: the positions of a figure record are signed numbers of sixteen bits. -/
structure FigureRecord.Sound (r : FigureRecord) : Prop where
  home : InRange r.home
  lower : InRange r.lower
  upper : InRange r.upper
  ordered : r.lower ≤ r.upper
  maxStep : 1 ≤ r.maxStep ∧ r.maxStep ≤ 2000

theorem figureRecord_sound (w : Nat → Word) : (figureRecord w).Sound := by
  have lower := signedHalf_inRange (w 2) 0
  have upper := signedHalf_inRange (w 2) 1
  refine ⟨signedHalf_inRange _ _, lower, ?_, Int.le_max_left _ _, ?_⟩
  · simp only [figureRecord, InRange] at *
    omega
  · simp only [figureRecord, clamp]
    omega

theorem readFigure_sound {k : FigIx} {o : List Nat} {p : Part} {rec : FigureRecord} (h : (readFigure k o p).1 = some rec) :
    rec.Sound := by
  unfold readFigure at h
  dsimp only at h
  split at h
  next e =>
    cases h
    obtain ⟨w, _, rfl⟩ := Option.map_eq_some_iff.mp e
    exact figureRecord_sound w
  next => cases h

theorem FigureRecord.Sound.limit {r : FigureRecord} (h : r.Sound) (z : Int) : InRange (r.limit z) := by
  obtain ⟨_, lower, upper, _, _⟩ := h
  simp only [FigureRecord.limit, clampInt, InRange] at *
  omega

/-- R88: a step ends between where it began and the limited target. -/
theorem FigureRecord.Sound.stepTowards {r : FigureRecord} (h : r.Sound) {z target : Int} (hz : InRange z) :
    InRange (r.stepTowards z target) := by
  have goal := h.limit target
  simp only [FigureRecord.stepTowards, clampInt, InRange] at *
  omega

/-! ## Reads of figure records -/

theorem LiveFigure.braked_setpoint (g : LiveFigure) (r : FigureRecord) : (g.braked r).setpoint = g.setpoint := by
  unfold LiveFigure.braked; split <;> rfl

theorem readFigure_kept (k : FigIx) (o : List Nat) (p : Part) : Kept p (readFigure k o p).2 := by
  obtain ⟨q, hq, h | ⟨rec, h⟩⟩ := readFigure_frame k o p
  · rw [h]; exact hq.kept
  · rw [h]; exact hq.kept.trans (setFigure_kept fun hz => by rwa [LiveFigure.braked_setpoint])

theorem resolveItems_kept (items : List FigureItem) (is : List (Fin 8 × FigIx)) (listed : List (FigIx × Drive)) (p : Part) :
    Kept p (resolveItems items is listed p).2 := by
  induction is generalizing listed p with
  | nil => exact Kept.refl p
  | cons x rest ih =>
    unfold resolveItems
    dsimp only
    split <;> exact (readFigure_kept _ _ _).trans (ih _ _)

theorem scanFigures_kept (node channel : Nat) (ks : List FigIx) (p : Part) :
    Kept p (scanFigures node channel ks p).2 := by
  induction ks generalizing p with
  | nil => exact Kept.refl p
  | cons k rest ih =>
    unfold scanFigures
    dsimp only
    split
    · exact (readFigure_kept _ _ _).trans (ih _)
    · split <;> exact (readFigure_kept _ _ _).trans (ih _)

/-! ## Causes, counts and free bytes -/

theorem setCounts_kept (f : Counts → Counts) (p : Part) : Kept p (setCounts f p) := (setCounts_noted f p).kept
theorem latchEvent_kept (k : Nat) (p : Part) : Kept p (latchEvent k p) := (latchEvent_noted k p).kept
theorem answer_kept (e : IntakeEntry) (r : Result) (d : List Byte) (p : Part) : Kept p (answer e r d p) :=
  (answer_noted e r d p).kept
theorem readBell_kept (b : BellIx) (o : List Nat) (p : Part) : Kept p (readBell b o p).2 := (readBell_noted b o p).kept
theorem loseStart_kept (p : Part) : Kept p (loseStart p) := latchEvent_kept _ p

theorem setBell_kept (b : BellIx) (f : BellState → BellState) (p : Part) : Kept p (setBell b f p) :=
  (setBell_carried b f p).kept id id id id id

theorem drawByte_kept (p : Part) : Kept p (drawByte p).2 := (drawByte_carried p).kept_of_out rfl rfl id id

theorem drawBytes_kept (n : Nat) (p : Part) : Kept p (drawBytes n p).2 := by
  induction n generalizing p with
  | zero => exact Kept.refl p
  | succ n ih => exact (drawByte_kept p).trans (ih _)

/-! ## Outbound queues -/

/-- A change of the outbound queues that lengthens none of them and leaves OQ-REPORT and the mark alone. -/
theorem setOut_shrunk_kept {f : Outbound → Outbound} {p : Part} (guard : (f p.out).guard.length ≤ p.out.guard.length)
    (strike : (f p.out).strike.length ≤ p.out.strike.length) (motion : (f p.out).motion.length ≤ p.out.motion.length)
    (passDn : (f p.out).passDn.length ≤ p.out.passDn.length) (passUp : (f p.out).passUp.length ≤ p.out.passUp.length)
    (report : (f p.out).report = p.out.report) (mode : (f p.out).mode = p.out.mode) (mark : (f p.out).mark = p.out.mark) :
    Kept p (setOut f p) := by
  refine (setOut_carried f p).kept_of_out rfl rfl ?_ ?_
  · rintro ⟨hg, hs, hm, hd, hr, hu, rest⟩
    exact ⟨guard.trans hg, strike.trans hs, motion.trans hm, passDn.trans hd, by rw [setOut_out, report]; exact hr,
      passUp.trans hu, rest⟩
  · unfold markBounded
    rw [setOut_out, report, mode, mark]
    exact id

theorem appendBrake_kept (d c : Byte) (p : Part) : Kept p (appendBrake d c p) := by
  unfold appendBrake
  split
  next room =>
    refine (drawByte_kept p).trans ((setOut_carried _ _).kept_of_out rfl rfl ?_ id)
    rintro ⟨_, rest⟩
    refine ⟨?_, rest⟩
    simpa [setOut, drawByte, guardCapacity] using room
  next => exact setCounts_kept _ _

theorem removePoses_kept (k : FigIx) (p : Part) : Kept p (removePoses k p) :=
  setOut_shrunk_kept (le_refl _) (le_refl _) (List.length_filter_le _ _) (le_refl _) (le_refl _) rfl rfl rfl

theorem brakeFigure_kept (k : FigIx) (p : Part) : Kept p (brakeFigure k p) := by
  unfold brakeFigure
  split <;> exact appendBrake_kept _ _ _

/-! ## Strikes -/

theorem releaseLoop_bounded (n : Nat) (p : Part) (h : p.out.strike.length ≤ 16) :
    (releaseLoop n p).out.strike.length ≤ 16 := by
  induction n generalizing p with
  | zero => exact h
  | succ n ih =>
    unfold releaseLoop
    split
    · exact h
    · split
      next e rest _ ready =>
        simp only [Bool.and_eq_true, decide_eq_true_eq] at ready
        refine ih _ ?_
        simpa [releaseStrike, strikeFrameCapacity] using ready.2
      next => exact h

/-- R65: a release takes the first entries of the queue, so the rest stays in order and with its owners. -/
theorem releaseDue_kept (p : Part) : Kept p (releaseDue p) := by
  obtain ⟨gone, rest, bells, split, h⟩ := releaseDue_frame p
  have bounded := releaseLoop_bounded p.strikes.queue.length p
  refine (releaseDue_carried p).kept ?_ ?_ ?_ ?_ ?_
  · rintro ⟨guard, strike, motion, passDn, report, passUp, queue, filter⟩
    have room := bounded strike
    change (releaseDue p).out.strike.length ≤ 16 at room
    rw [h] at room ⊢
    rw [split, List.length_append] at queue
    exact ⟨guard, room, motion, passDn, report, passUp, by dsimp only; omega, filter⟩
  · rw [h]; exact id
  · unfold strikesOrdered
    rw [h, split, List.pairwise_append]
    exact fun hp => hp.2.1
  · unfold strikesOwned
    rw [h, split]
    exact fun hp e he => hp e (List.mem_append_right _ he)
  · rw [h]; exact id

/-- A strike queue in place of another, no longer, in order and with its owners. -/
theorem setQueue_kept {q : List Strike} {p : Part} (length : p.strikes.queue.length ≤ 64 → q.length ≤ 64)
    (ordered : strikesOrdered p → q.Pairwise fun a b => a.fire ≤ b.fire)
    (owned : strikesOwned p → ∀ e ∈ q, p.bellOwner.read e.bell = some e.slot) : Kept p (setQueue q p) := by
  refine (setQueue_carried q p).kept ?_ id ordered owned id
  rintro ⟨guard, strike, motion, passDn, report, passUp, queue, filter⟩
  exact ⟨guard, strike, motion, passDn, report, passUp, length queue, filter⟩

theorem setQueue_filter_kept (f : Strike → Bool) (p : Part) : Kept p (setQueue (p.strikes.queue.filter f) p) :=
  setQueue_kept (fun h => (List.length_filter_le _ _).trans h) (fun h => h.sublist List.filter_sublist)
    fun h e he => h e (List.mem_of_mem_filter he)

theorem removeStrikes_kept (gone : Strike → Bool) (p : Part) : Kept p (removeStrikes gone p) := by
  unfold removeStrikes
  dsimp only
  split
  · exact (setQueue_filter_kept _ p).trans (releaseDue_kept _)
  · exact setQueue_filter_kept _ p

theorem withdrawBell_kept (b : BellIx) (p : Part) : Kept p (withdrawBell b p) := removeStrikes_kept _ p

theorem insertStrike_ordered (n : Strike) (l : List Strike) (h : l.Pairwise fun a b => a.fire ≤ b.fire) :
    (insertStrike n l).Pairwise fun a b => a.fire ≤ b.fire := by
  obtain ⟨before, after, rfl, hi, hb, ha⟩ := insertStrike_split n l
  rw [List.pairwise_append] at h
  obtain ⟨h1, h2, h3⟩ := h
  have later : ∀ e ∈ after, n.fire ≤ e.fire := by
    intro e he
    cases after with
    | nil => cases he
    | cons x rest =>
      have first := ha x rfl
      rcases List.mem_cons.mp he with rfl | he
      · omega
      · have := List.rel_of_pairwise_cons h2 he
        omega
  rw [hi, List.pairwise_append, List.pairwise_cons]
  refine ⟨h1, ⟨later, h2⟩, fun a haa b hbb => ?_⟩
  rcases List.mem_cons.mp hbb with rfl | hbb
  · exact hb a haa
  · exact h3 a haa b hbb

theorem mem_insertStrike {n e : Strike} {l : List Strike} (h : e ∈ insertStrike n l) : e = n ∨ e ∈ l := by
  obtain ⟨before, after, rfl, hi, -, -⟩ := insertStrike_split n l
  rw [hi, List.mem_append, List.mem_cons] at h
  rw [List.mem_append]
  tauto

theorem length_insertStrike (n : Strike) (l : List Strike) : (insertStrike n l).length = l.length + 1 := by
  obtain ⟨before, after, rfl, hi, -, -⟩ := insertStrike_split n l
  rw [hi]
  simp only [List.length_append, List.length_cons]
  omega

/-- R64: an entry of a bell that its slot owns is queued while the queue has room. -/
theorem enqueueStrike_kept (n : Strike) (p : Part) (room : p.strikes.queue.length < 64)
    (own : p.bellOwner.read n.bell = some n.slot) : Kept p (enqueueStrike n p) := by
  have queued : Kept p (setQueue (insertStrike n p.strikes.queue) p) := by
    refine setQueue_kept (fun _ => by rw [length_insertStrike]; exact room) (insertStrike_ordered n _) fun h e he => ?_
    rcases mem_insertStrike he with rfl | he
    · exact own
    · exact h e he
  unfold enqueueStrike
  dsimp only
  split
  · exact queued.trans (releaseDue_kept _)
  · exact queued

/-- R63: an entry that takes a larger velocity keeps its place, its slot, its bell and its fire instant. -/
theorem raiseFirst_keys (b : BellIx) (rec : Nat) (f : Int) (v : Nat) (l : List Strike) :
    (raiseFirst b rec f v l).map (fun e => (e.slot, e.bell, e.fire)) = l.map fun e => (e.slot, e.bell, e.fire) := by
  induction l with
  | nil => rfl
  | cons e rest ih =>
    unfold raiseFirst
    split
    · rfl
    · simp only [List.map_cons, ih]

theorem raiseFirst_kept (b : BellIx) (rec : Nat) (f : Int) (v : Nat) (p : Part) :
    Kept p (setQueue (raiseFirst b rec f v p.strikes.queue) p) := by
  have keys := raiseFirst_keys b rec f v p.strikes.queue
  refine setQueue_kept (fun h => ?_) (fun h => ?_) fun h e he => ?_
  · have := congrArg List.length keys
    simp only [List.length_map] at this
    omega
  · have fires := congrArg (List.map fun x : SlotIx × BellIx × Int => x.2.2) keys
    simp only [List.map_map, Function.comp_def] at fires
    rw [← List.pairwise_map (f := Strike.fire) (R := (· ≤ ·))] at *
    rw [fires, List.pairwise_map]
    exact h
  · have : (e.slot, e.bell, e.fire) ∈ p.strikes.queue.map fun e => (e.slot, e.bell, e.fire) := by
      rw [← keys]
      exact List.mem_map.mpr ⟨e, he, rfl⟩
    obtain ⟨x, hx, key⟩ := List.mem_map.mp this
    simp only [Prod.mk.injEq] at key
    rw [← key.2.1, ← key.1]
    exact h x hx

theorem placeNote_kept (s : SlotIx) (b : BellIx) (rec : BellRecord) (v n : Nat) (p : Part)
    (own : p.bellOwner.read b = some s) : Kept p (placeNote s b rec v n p) := by
  unfold placeNote
  dsimp only
  split
  · exact setCounts_kept _ _
  · split
    · exact (raiseFirst_kept _ _ _ _ p).trans (setCounts_kept _ _)
    · split
      · exact (setCounts_kept _ p).trans (latchEvent_kept _ _)
      next room => exact enqueueStrike_kept _ p (by simpa [strikeQueueCapacity] using room) own

theorem substituteNote_kept (s : SlotIx) (rec : BellRecord) (v n : Nat) (p : Part) :
    Kept p (substituteNote s rec v n p) := by
  unfold substituteNote
  split
  · exact setCounts_kept _ _
  · split
    · exact setCounts_kept _ _
    next t _ owned =>
      have own : p.bellOwner.read t = some s := by
        simp only [Bool.or_eq_true, decide_eq_true_eq, not_or, not_not] at owned
        exact owned.2
      dsimp only
      split
      · exact (readBell_kept _ _ p).trans (setCounts_kept _ _)
      · split
        · exact (readBell_kept _ _ p).trans (setCounts_kept _ _)
        · exact (readBell_kept _ _ p).trans (placeNote_kept _ _ _ _ _ _ (by rw [(readBell_noted _ _ p).bellOwner]; exact own))

theorem handNote_kept (s : SlotIx) (b : BellIx) (v instant : Nat) (p : Part) : Kept p (handNote s b v instant p) := by
  unfold handNote
  split
  · exact setCounts_kept _ _
  next owned =>
    have own : p.bellOwner.read b = some s := not_not.mp owned
    dsimp only
    split
    · split
      · exact readBell_kept _ _ p
      · exact (readBell_kept _ _ p).trans (placeNote_kept _ _ _ _ _ _ (by rw [(readBell_noted _ _ p).bellOwner]; exact own))
    · split
      · exact readBell_kept _ _ p
      · exact (readBell_kept _ _ p).trans (substituteNote_kept _ _ _ _ _)
    · split
      · exact readBell_kept _ _ p
      · exact (readBell_kept _ _ p).trans (substituteNote_kept _ _ _ _ _)

/-! ## The barrel reader -/

theorem passNote_kept (s : SlotIx) (entry v instant : Nat) (p : Part) : Kept p (passNote s entry v instant p) := by
  unfold passNote
  split
  · exact setCounts_kept _ _
  · dsimp only
    split
    · exact readBell_kept _ _ p
    · split
      · exact (readBell_kept _ _ p).trans (setCounts_kept _ _)
      · exact (readBell_kept _ _ p).trans (handNote_kept _ _ _ _ _)

theorem readRow_kept (s : SlotIx) (x : BarrelContext) (k : Nat) (p : Part) : Kept p (readRow s x k p) := by
  unfold readRow
  dsimp only
  split
  · exact (readWord_noted _ _ p).kept.trans (setCounts_kept _ _)
  · split
    · exact (readWord_noted _ _ p).kept
    · exact (readWord_noted _ _ p).kept.trans (passNote_kept _ _ _ _ _)

theorem setContext_kept (s : SlotIx) (f : BarrelContext → BarrelContext) (p : Part) : Kept p (setContext s f p) where
  wf := id
  bounded := id
  mark := id
  ordered := id
  owned := id
  owners := id
  setpoints := id
  clock h := ⟨h, stampUpTo_refl _⟩
  upSums := id
  downSums := id

theorem readStep_kept (s : SlotIx) (p : Part) : Kept p (readStep s p) :=
  (foldl_kept _ _ _ fun q k => readRow_kept s (p.contexts.read s) k q).trans (setContext_kept _ _ _)

theorem readLoop_kept (s : SlotIx) (n : Nat) (p : Part) : Kept p (readLoop s n p) := by
  induction n generalizing p with
  | zero => exact Kept.refl p
  | succ n ih =>
    unfold readLoop
    split
    · exact (readStep_kept s p).trans (ih _)
    · exact Kept.refl p

theorem readDueSteps_kept (s : SlotIx) (p : Part) : Kept p (readDueSteps s p) := readLoop_kept s _ p

/-! ## Figures -/

theorem faultMoving_kept (k : FigIx) (why : FaultReason) (p : Part) : Kept p (faultMoving k why p) :=
  (((removePoses_kept k p).trans (brakeFigure_kept _ _)).trans (setFigure_kept id)).trans (latchEvent_kept _ _)

theorem faultFrozen_kept (k : FigIx) (p : Part) : Kept p (faultFrozen k p) :=
  (setFigure_kept id).trans (latchEvent_kept _ _)

theorem addHold_kept (k : FigIx) (n : LineIx) (a : Bool) (p : Part) : Kept p (addHold k n a p) := by
  have held : Kept p (setFigure k (fun g => { g with hold := setMember g.hold n.val }) p) := setFigure_kept id
  have stopped : Kept p (if a then removePoses k (setFigure k (fun g => { g with hold := setMember g.hold n.val }) p)
      else brakeFigure k (removePoses k (setFigure k (fun g => { g with hold := setMember g.hold n.val }) p))) := by
    split
    · exact held.trans (removePoses_kept k _)
    · exact (held.trans (removePoses_kept k _)).trans (brakeFigure_kept _ _)
  unfold addHold
  dsimp only
  split
  · exact stopped.trans (setFigure_kept id)
  · exact stopped.trans (setFigure_kept id)
  · exact held.trans (setFigure_kept id)
  · exact held
  · exact held

theorem resync_kept (k : FigIx) (p : Part) : Kept p (resync k p) := by
  unfold resync
  dsimp only
  split
  · exact (readFigure_kept _ _ p).trans (faultFrozen_kept _ _)
  next rec read => exact (readFigure_kept _ _ p).trans (setFigure_kept fun _ => (readFigure_sound read).limit _)

theorem removeHold_kept (n : LineIx) (k : FigIx) (p : Part) : Kept p (removeHold n k p) := by
  have dropped : Kept p (setFigure k (fun x => { x with hold := dropMember x.hold n.val }) p) := setFigure_kept id
  unfold removeHold
  dsimp only
  split
  · split
    · exact dropped.trans (resync_kept _ _)
    · exact dropped
  · exact Kept.refl p

theorem driveIdle_kept (k : FigIx) (p : Part) : Kept p (driveIdle k p) := by
  refine (readFigure_kept k figureLimitWords p).trans (setFigure_kept fun hz => ?_)
  dsimp only
  split
  next rec read => exact (readFigure_sound read).limit _
  next => exact hz

theorem retarget_kept (k : FigIx) (owner : Option SlotIx) (drive : Option Drive) (p : Part) :
    Kept p (retarget k owner drive p) := by
  have h : Kept p (setFigure k (fun g => { g with owner := owner, drive := drive }) p) := setFigure_kept id
  unfold retarget
  dsimp only
  split
  · exact h.trans (driveIdle_kept _ _)
  · exact h
  · exact h
  · exact h.trans (setFigure_kept id)
  · exact h.trans (setFigure_kept id)
  · exact h
  · exact h
  · exact h

theorem handRetarget_kept (before : Bank (Option SlotIx) 16) (k : FigIx) (p : Part) :
    Kept p (handRetarget before k p) := by
  unfold handRetarget
  dsimp only
  split
  · exact Kept.refl p
  · exact retarget_kept _ _ _ p

theorem sendPose_kept (k : FigIx) (rec : FigureRecord) (target : Int) (p : Part) (h : rec.Sound) :
    Kept p (sendPose k rec target p) := by
  unfold sendPose
  dsimp only
  split
  next room =>
    have appended : ∀ f : Frame, Kept p (setOut (fun o => { o with motion := o.motion ++ [{ figure := k, frame := f }] })
        (drawByte p).2) := by
      intro f
      refine (drawByte_kept p).trans ((setOut_carried _ _).kept_of_out rfl rfl ?_ id)
      rintro ⟨guard, strike, _, rest⟩
      refine ⟨guard, strike, ?_, rest⟩
      simpa [setOut, drawByte, motionCapacity] using room
    have moved : ∀ (f : Frame) (lag : Bool), Kept p (setFigure k (fun x => { x with
        setpoint := rec.stepTowards (p.figures.read k).setpoint target, lag := lag })
          (setOut (fun o => { o with motion := o.motion ++ [{ figure := k, frame := f }] }) (drawByte p).2)) :=
      fun f lag => (appended f).trans (setFigure_kept h.stepTowards)
    have latched : ∀ (c : Bool) (q : Part), Kept p q → Kept p (if c then latchEvent Source.figureLag q else q) := by
      intro c q hq
      split
      · exact hq.trans (latchEvent_kept _ _)
      · exact hq
    split
    · exact (latched _ _ (moved _ _)).trans (setFigure_kept id)
    · exact latched _ _ (moved _ _)
  next => exact setCounts_kept _ _

theorem visitTarget_kept (k : FigIx) (rec : FigureRecord) (p : Part) (h : rec.Sound) : Kept p (visitTarget k rec p) := by
  unfold visitTarget
  dsimp only
  split
  · exact sendPose_kept _ _ _ _ h
  · split
    · exact (drivenTarget_noted _ _ p).kept.trans (faultMoving_kept _ _ _)
    · exact (drivenTarget_noted _ _ p).kept.trans (sendPose_kept _ _ _ _ h)

theorem visitFitted_kept (k : FigIx) (rec : FigureRecord) (p : Part) (h : rec.Sound) : Kept p (visitFitted k rec p) := by
  unfold visitFitted
  dsimp only
  split
  · exact faultMoving_kept _ _ _
  · split
    · exact faultMoving_kept _ _ _
    · split
      · exact faultMoving_kept _ _ _
      · exact visitTarget_kept _ _ _ h

theorem visitUnfitted_kept (k : FigIx) (p : Part) : Kept p (visitUnfitted k p) := by
  refine setFigure_kept fun h => ?_
  split <;> exact h

theorem visitFigure_kept (k : FigIx) (p : Part) : Kept p (visitFigure k p) := by
  unfold visitFigure
  dsimp only
  split
  · split
    · exact (readFigure_kept _ _ p).trans (faultMoving_kept _ _ _)
    next rec read =>
      split
      · exact (readFigure_kept _ _ p).trans (visitUnfitted_kept _ _)
      · exact (readFigure_kept _ _ p).trans (visitFitted_kept _ _ _ (readFigure_sound read))
  · exact Kept.refl p

theorem motionPeriod_kept (p : Part) : Kept p (motionPeriod p) := by
  unfold motionPeriod
  split
  · exact foldl_kept _ _ _ fun q k => visitFigure_kept k q
  · exact Kept.refl p

theorem testStall_kept (k : FigIx) (rec : FigureRecord) (z : Int) (stamp : Nat) (p : Part) :
    Kept p (testStall k rec z stamp p) := by
  have compared : Kept p (setFigure k (·.compared rec z stamp) p) := setFigure_kept id
  unfold testStall
  dsimp only
  split
  · exact compared.trans (faultMoving_kept _ _ _)
  · exact compared

theorem reportMoving_kept (k : FigIx) (z : Int) (stamp : Nat) (endStop : Bool) (p : Part) :
    Kept p (reportMoving k z stamp endStop p) := by
  have heard : Kept p (setFigure k (fun g => { g with silence := some stamp }) p) := setFigure_kept id
  unfold reportMoving
  dsimp only
  split
  · exact heard.trans (faultMoving_kept _ _ _)
  · split
    · exact heard.trans (readFigure_kept _ _ _)
    · exact (heard.trans (readFigure_kept _ _ _)).trans (testStall_kept _ _ _ _ _)

theorem reportFigure_kept (k : FigIx) (z : Int) (stamp : Nat) (endStop : Bool) (p : Part) :
    Kept p (reportFigure k z stamp endStop p) := by
  have stored : Kept p (setFigure k (fun g => { g with reported := some z, reportStamp := some stamp }) p) :=
    setFigure_kept id
  unfold reportFigure
  dsimp only
  split
  · exact stored.trans (reportMoving_kept _ _ _ _ _)
  · exact stored

theorem releaseFigure_kept (lines : BitVec 8) (k : FigIx) (p : Part) : Kept p (releaseFigure lines k p) := by
  have dropped : Kept p (setFigure k (fun x => { x with hold := x.hold &&& ~~~ lines }) p) := setFigure_kept id
  unfold releaseFigure
  dsimp only
  split
  · split
    · exact (dropped.trans (setFigure_kept id)).trans (resync_kept _ _)
    · exact dropped.trans (setFigure_kept id)
  · split
    · exact dropped.trans (resync_kept _ _)
    · exact dropped
  · exact dropped
  · exact dropped
  · exact dropped

theorem freezeInZones_kept (n : LineIx) (zones : BitVec 8) (k : FigIx) (p : Part) : Kept p (freezeInZones n zones k p) := by
  unfold freezeInZones
  dsimp only
  split
  · exact (readFigure_kept _ _ p).trans (addHold_kept _ _ _ _)
  · split
    · exact (readFigure_kept _ _ p).trans (addHold_kept _ _ _ _)
    · exact readFigure_kept _ _ p

theorem clampFigure_kept (k : FigIx) (p : Part) : Kept p (clampFigure k p) := by
  unfold clampFigure
  dsimp only
  split
  next rec read => exact (readFigure_kept _ _ p).trans (setFigure_kept fun _ => (readFigure_sound read).limit _)
  · split
    · exact (readFigure_kept _ _ p).trans (faultMoving_kept _ _ _)
    · exact readFigure_kept _ _ p

/-! ## Ownership and slots -/

theorem recompute_agrees (p : Part) : ownersAgree (recompute p) := by
  unfold ownersAgree
  rw [recompute_slots]
  exact ⟨recompute_bellOwner p, recompute_figOwner p⟩

/-- R41, R72: the entries whose slots keep their bells stay with the owners of the new table. -/
theorem withdrawLost_owned (before : Bank (Option SlotIx) 48) (p : Part)
    (h : ∀ e ∈ p.strikes.queue, before.read e.bell = some e.slot) : strikesOwned (withdrawLost before p) := by
  obtain ⟨sent, rest, bells, kept, eq⟩ := removeStrikes_frame (·.lost before p.bellOwner) p
  unfold strikesOwned withdrawLost
  rw [eq]
  intro e he
  have mem : e ∈ p.strikes.queue.filter fun e => !e.lost before p.bellOwner := by
    rw [kept]; exact List.mem_append_right _ he
  obtain ⟨queued, stays⟩ := List.mem_filter.mp mem
  simpa [Strike.lost, h e queued] using stays

/-- The table taken afresh, before the hand-offs. -/
def reowned (p : Part) : Part :=
  { p with bellOwner := Vector.ofFn (bellClaim p.slots), figOwner := Vector.ofFn (figureClaim p.slots) }

theorem recompute_eq (p : Part) :
    recompute p = allFigures.foldl (fun x k => handRetarget p.figOwner k x) (withdrawLost p.bellOwner (reowned p)) := rfl

theorem handRetargets_kept (before : Bank (Option SlotIx) 16) (p : Part) :
    Kept p (allFigures.foldl (fun x k => handRetarget before k x) p) :=
  foldl_kept _ _ _ fun q k => handRetarget_kept before k q

/-- No condition but the two on owners depends on the ownership table. -/
theorem Kept.of_owners {p q : Part} {bells : Bank (Option SlotIx) 48} {figs : Bank (Option SlotIx) 16}
    (h : Kept { p with bellOwner := bells, figOwner := figs } q) (owned : strikesOwned p → strikesOwned q)
    (owners : ownersAgree p → ownersAgree q) : Kept p q where
  wf := h.wf
  bounded := h.bounded
  mark := h.mark
  ordered := h.ordered
  owned := owned
  owners := owners
  setpoints := h.setpoints
  clock := h.clock
  upSums := h.upSums
  downSums := h.downSums

/-- R39, R41: after a recomputation the owners are right, whatever they were before, and the strikes are with them. -/
theorem recompute_keeps (p : Part) : Kept p (recompute p) := by
  have handed := handRetargets_kept p.figOwner (withdrawLost p.bellOwner (reowned p))
  exact Kept.of_owners ((removeStrikes_kept _ _).trans handed)
    (fun hp => handed.owned (withdrawLost_owned p.bellOwner (reowned p) hp)) fun _ => recompute_agrees p

/-- R39, R41: so a change of the slots is made good by a recomputation. -/
theorem recompute_kept {p r q : Part} (hr : r = { p with slots := r.slots, contexts := r.contexts }) (h : Kept r q) :
    Kept p (recompute q) := by
  have all := h.trans (recompute_keeps q)
  generalize r.slots = slots at hr
  generalize r.contexts = contexts at hr
  subst hr
  exact {
    wf := all.wf
    bounded := all.bounded
    mark := all.mark
    ordered := all.ordered
    owned := all.owned
    owners := fun _ => recompute_agrees q
    setpoints := all.setpoints
    clock := all.clock
    upSums := all.upSums
    downSums := all.downSums }

/-- A change of a slot's record in which the slot stays busy or not, with the same show, changes no owner. -/
theorem setSlot_kept {i : SlotIx} {f : Slot → Slot} {p : Part} (busy : (f (p.slots.read i)).busy = (p.slots.read i).busy)
    (copy : (f (p.slots.read i)).copy = (p.slots.read i).copy) : Kept p (setSlot i f p) := by
  have busies : ∀ j, ((p.slots.update i f).read j).busy = (p.slots.read j).busy := by
    intro j; rw [Bank.read_update]; split
    next e => rw [busy, e]
    next => rfl
  have copies : ∀ j, ((p.slots.update i f).read j).copy = (p.slots.read j).copy := by
    intro j; rw [Bank.read_update]; split
    next e => rw [copy, e]
    next => rfl
  refine { Kept.refl p with owners := fun hp => ?_ }
  unfold ownersAgree bellClaim figureClaim
  simp only [setSlot_slots, setSlot_bellOwner, setSlot_figOwner, busies, copies]
  exact hp

theorem setWaiting_kept (i : SlotIx) (w : Option PendingStart) (p : Part) :
    Kept p (setSlot i (fun x => { x with waiting := w }) p) := setSlot_kept rfl rfl

theorem startShow_kept (slot : SlotIx) (show_ : ShowIx) (source : StartSource) (rank reps : Nat) (c : CheckedShow) (p : Part) :
    Kept p (startShow slot show_ source rank reps c p) := by
  unfold startShow
  refine (((Kept.trans (resolveItems_kept _ _ _ p) (recompute_kept rfl (Kept.refl _))).trans (setContext_kept _ _ _)).trans
    (latchEvent_kept _ _)).trans (readDueSteps_kept _ _)

theorem idleSlot_kept (slot : SlotIx) (p : Part) : Kept p (idleSlot slot p) := recompute_kept rfl (Kept.refl _)

theorem replaceShow_kept (slot : SlotIx) (show_ : ShowIx) (source : StartSource) (rank reps : Nat) (c : CheckedShow) (p : Part) :
    Kept p (replaceShow slot show_ source rank reps c p) := (idleSlot_kept _ _).trans (startShow_kept _ _ _ _ _ _ _)

theorem attemptStart_kept (r : StartRequest) (start : Nat → CheckedShow → Part → Part) (p : Part)
    (h : ∀ reps c q, Kept q (start reps c q)) : Kept p (attemptStart r start p) := by
  unfold attemptStart
  dsimp only
  split
  · exact (checkShow_noted _ p).kept.trans (loseStart_kept _)
  · split
    · exact (checkShow_noted _ p).kept.trans (loseStart_kept _)
    · exact (checkShow_noted _ p).kept.trans (h _ _ _)

theorem becomePending_kept (r : StartRequest) (p : Part) : Kept p (becomePending r p) := by
  unfold becomePending
  dsimp only
  split
  · exact (loseStart_kept p).trans (setWaiting_kept _ _ _)
  · exact setWaiting_kept _ _ _

theorem requestStart_kept (r : StartRequest) (p : Part) : Kept p (requestStart r p) := by
  unfold requestStart
  split
  · exact loseStart_kept p
  · split
    · exact attemptStart_kept _ _ _ fun _ _ _ => startShow_kept _ _ _ _ _ _ _
    · split
      · exact attemptStart_kept _ _ _ fun _ _ _ => replaceShow_kept _ _ _ _ _ _ _
      · exact becomePending_kept _ _

theorem considerPending_kept (slot : SlotIx) (p : Part) : Kept p (considerPending slot p) := by
  unfold considerPending
  split
  · exact Kept.refl p
  · exact (setWaiting_kept _ _ _).trans (attemptStart_kept _ _ _ fun _ _ _ => startShow_kept _ _ _ _ _ _ _)

theorem endShow_kept (slot : SlotIx) (p : Part) : Kept p (endShow slot p) := by
  unfold endShow
  split
  · exact (recompute_kept rfl (latchEvent_kept _ _)).trans (considerPending_kept _ _)
  · exact Kept.refl p

theorem expirePending_kept (slot : SlotIx) (p : Part) : Kept p (expirePending slot p) := by
  unfold expirePending
  split
  · exact (setWaiting_kept _ _ _).trans (loseStart_kept _)
  · exact Kept.refl p

theorem discardPending_kept (p : Part) (slot : SlotIx) : Kept p (discardPending p slot) := by
  unfold discardPending
  split
  · exact (setWaiting_kept _ _ _).trans (loseStart_kept _)
  · exact Kept.refl p

/-- R37: every slot is IDLE, its barrel context with it. -/
def idled (p : Part) : Part :=
  { p with
    slots := p.slots.each fun x => { x with state := SlotState.idle, hold := none }
    contexts := p.contexts.each fun _ => BarrelContext.initial }

theorem stopSlots_eq (p : Part) : stopSlots p = recompute (allSlots.foldl discardPending (idled p)) := rfl

theorem stopSlots_kept (p : Part) : Kept p (stopSlots p) := by
  rw [stopSlots_eq]
  exact recompute_kept (r := idled p) rfl (foldl_kept _ _ _ discardPending_kept)

theorem stopShow_kept (slot : SlotIx) (discard : Bool) (p : Part) : Kept p (stopShow slot discard p) := by
  unfold stopShow
  dsimp only
  split
  · exact (idleSlot_kept _ _).trans (setWaiting_kept _ _ _)
  · exact (idleSlot_kept _ _).trans (considerPending_kept _ _)

end Sys2Proof.Machine
end

section
/-! Dates and times (R1): the numbering of the milliseconds of the clock's span and the possible times correspond one
to one. -/

namespace Sys2Proof.Machine

/-! ## Months -/

theorem daysBefore_mono (y : Nat) {a b : Nat} (h : a ≤ b) : daysBefore y a ≤ daysBefore y b := by
  induction h with
  | refl => exact Nat.le_refl _
  | step _ ih => exact Nat.le_trans ih (Nat.le_add_right _ _)

theorem daysBefore_one (y : Nat) : daysBefore y 1 = 0 := by simp [daysBefore, monthLength]

theorem daysBefore_thirteen (y : Nat) : daysBefore y 13 = if y % 4 = 0 then 366 else 365 := by
  simp only [daysBefore, monthLength]
  split <;> omega

/-- The month and day found are those of the day of the year. -/
theorem monthAndDay_spec (y fuel m doy : Nat) (hm : 1 ≤ m) (hf : m + fuel = 12)
    (h : daysBefore y m + doy < daysBefore y 13) :
    let r := monthAndDay y fuel m doy
    m ≤ r.1 ∧ r.1 ≤ 12 ∧ 1 ≤ r.2 ∧ r.2 ≤ monthLength y r.1 ∧ daysBefore y r.1 + (r.2 - 1) = daysBefore y m + doy := by
  induction fuel generalizing m doy with
  | zero =>
    obtain rfl : m = 12 := by omega
    have december : daysBefore y 13 = daysBefore y 12 + monthLength y 12 := rfl
    simp only [monthAndDay]
    omega
  | succ fuel ih =>
    unfold monthAndDay
    split
    · dsimp only
      omega
    · have next : daysBefore y (m + 1) = daysBefore y m + monthLength y m := rfl
      have := ih (m + 1) (doy - monthLength y m) (by omega) (by omega) (by omega)
      dsimp only at this ⊢
      omega

/-- There is no other month and day with that day of the year. -/
theorem monthAndDay_unique (y fuel m doy month day : Nat) (hf : m + fuel = 12) (hm : m ≤ month) (hM : month ≤ 12)
    (hd : 1 ≤ day) (hl : day ≤ monthLength y month) (h : daysBefore y month + (day - 1) = daysBefore y m + doy) :
    monthAndDay y fuel m doy = (month, day) := by
  induction fuel generalizing m doy with
  | zero =>
    obtain rfl : m = month := by omega
    simp only [monthAndDay, Prod.mk.injEq, true_and]
    omega
  | succ fuel ih =>
    have next : daysBefore y (m + 1) = daysBefore y m + monthLength y m := rfl
    by_cases e : m = month
    · subst e
      unfold monthAndDay
      rw [if_pos (by omega)]
      simp only [Prod.mk.injEq, true_and]
      omega
    · have later := daysBefore_mono y (show m + 1 ≤ month by omega)
      unfold monthAndDay
      rw [if_neg (by omega)]
      exact ih (m + 1) _ (by omega) (by omega) (by omega)

/-! ## Years -/

/-- The days of the years before `y`. -/
def daysToYear (y : Nat) : Nat := 365 * (y - 2000) + (y - 2000 + 3) / 4

theorem yearAndDay_spec (n : Nat) (h : n < 36525) :
    let r := yearAndDay n
    2000 ≤ r.1 ∧ r.1 ≤ 2099 ∧ r.2 < daysBefore r.1 13 ∧ daysToYear r.1 + r.2 = n := by
  simp only [yearAndDay, daysToYear, daysBefore_thirteen]
  split
  · dsimp only
    split <;> omega
  · dsimp only
    split <;> omega

theorem yearAndDay_unique (n y doy : Nat) (hy : 2000 ≤ y) (hd : doy < daysBefore y 13) (h : daysToYear y + doy = n) :
    yearAndDay n = (y, doy) := by
  obtain ⟨q, t, ht, rfl⟩ : ∃ q t, t < 4 ∧ y = 2000 + (4 * q + t) :=
    ⟨(y - 2000) / 4, (y - 2000) % 4, by omega, by omega⟩
  rw [daysBefore_thirteen] at hd
  have days : n = 365 * (4 * q + t) + (4 * q + t + 3) / 4 + doy := by
    rw [← h, daysToYear]
    omega
  have leap : (2000 + (4 * q + t)) % 4 = 0 ↔ t = 0 := by omega
  simp only [leap] at hd
  obtain rfl | first : t = 0 ∨ 1 ≤ t := by omega
  · rw [if_pos rfl] at hd
    simp only [yearAndDay, show n % 1461 = doy by omega, show n / 1461 = q by omega, if_pos hd, Nat.add_zero]
  · rw [if_neg (by omega)] at hd
    have cycles : n = 1461 * q + (365 * t + 1 + doy) := by omega
    have inCycle : n % 1461 = 365 * t + 1 + doy := by omega
    simp only [yearAndDay, inCycle, show n / 1461 = q by omega, if_neg (show ¬ 365 * t + 1 + doy < 366 by omega), Prod.mk.injEq]
    omega

/-! ## Times -/

theorem DateTime.possible_iff (d : DateTime) : d.possible = true ↔
    2000 ≤ d.year ∧ d.year ≤ 2099 ∧ 1 ≤ d.month ∧ d.month ≤ 12 ∧ 1 ≤ d.day ∧ d.day ≤ monthLength d.year d.month ∧
      d.hour ≤ 23 ∧ d.minute ≤ 59 ∧ d.second ≤ 59 ∧ d.milli ≤ 999 := by
  simp only [DateTime.possible, Bool.and_eq_true, decide_eq_true_eq]
  tauto

theorem DateTime.dayNumber_eq (d : DateTime) :
    d.dayNumber = daysToYear d.year + (daysBefore d.year d.month + (d.day - 1)) := by
  simp only [DateTime.dayNumber, daysToYear]
  omega

theorem DateTime.dayOfYear_lt {d : DateTime} (h : d.possible = true) :
    daysBefore d.year d.month + (d.day - 1) < daysBefore d.year 13 := by
  obtain ⟨_, _, hm, hM, hd, hD, _⟩ := d.possible_iff.mp h
  have := daysBefore_mono d.year (show d.month + 1 ≤ 13 by omega)
  simp only [daysBefore] at this ⊢
  omega

/-- R1: the time found for a number of milliseconds in the span is possible and lies that many later. -/
theorem timeOfMillis_spec {n : Nat} (h : n ≤ lastMillis) : (timeOfMillis n).possible = true ∧ (timeOfMillis n).millis = n := by
  simp only [lastMillis, dayMillis] at h
  obtain ⟨hy, hY, hd, hn⟩ := yearAndDay_spec (n / 86400000) (by omega)
  have spec := monthAndDay_spec (yearAndDay (n / 86400000)).1 11 1 (yearAndDay (n / 86400000)).2 (by omega) (by omega)
    (by rw [daysBefore_one, Nat.zero_add]; exact hd)
  rw [daysBefore_one, Nat.zero_add] at spec
  obtain ⟨hm, hM, h1, hl, hday⟩ := spec
  refine ⟨?_, ?_⟩
  · rw [DateTime.possible_iff]
    simp only [timeOfMillis, dayMillis, minuteMillis]
    exact ⟨hy, hY, hm, hM, h1, hl, by omega, by omega, by omega, by omega⟩
  · rw [DateTime.millis, DateTime.dayNumber_eq]
    simp only [timeOfMillis, dayMillis, minuteMillis]
    rw [hday, hn]
    omega

theorem possible_timeOfMillis {n : Nat} (h : n ≤ lastMillis) : (timeOfMillis n).possible = true := (timeOfMillis_spec h).1
theorem millis_timeOfMillis {n : Nat} (h : n ≤ lastMillis) : (timeOfMillis n).millis = n := (timeOfMillis_spec h).2

/-- R1: a possible time is the one found for its number of milliseconds. -/
theorem timeOfMillis_millis {d : DateTime} (h : d.possible = true) : timeOfMillis d.millis = d := by
  have inYear := DateTime.dayOfYear_lt h
  obtain ⟨hy, hY, hm, hM, hd, hD, hour, minute, second, milli⟩ := d.possible_iff.mp h
  have day : d.millis / 86400000 = d.dayNumber := by
    simp only [DateTime.millis, dayMillis, minuteMillis]
    omega
  have time : d.millis % 86400000 = d.hour * 3600000 + d.minute * 60000 + d.second * 1000 + d.milli := by
    simp only [DateTime.millis, dayMillis, minuteMillis]
    omega
  have year := yearAndDay_unique d.dayNumber d.year _ hy inYear d.dayNumber_eq.symm
  have month := monthAndDay_unique d.year 11 1 (daysBefore d.year d.month + (d.day - 1)) d.month d.day (by omega) hm hM hd hD
    (by rw [daysBefore_one]; omega)
  simp only [timeOfMillis, dayMillis, minuteMillis, day, time, year, month]
  obtain ⟨y, mo, da, ho, mi, se, ms⟩ := d
  simp only at hour minute second milli
  simp only [DateTime.mk.injEq, true_and]
  omega

theorem DateTime.possible_later (d : DateTime) (n : Nat) : (d.later n).possible = true :=
  possible_timeOfMillis (Nat.min_le_right _ _)

theorem DateTime.millis_later {d : DateTime} {n : Nat} (h : d.millis + n ≤ lastMillis) : (d.later n).millis = d.millis + n := by
  rw [DateTime.later, Nat.min_eq_left h]
  exact millis_timeOfMillis h

theorem DateTime.possible_floorMinute {d : DateTime} (h : d.possible = true) : d.floorMinute.possible = true := by
  rw [DateTime.possible_iff] at h ⊢
  simp only [DateTime.floorMinute]
  omega

/-- R10: a minute is a multiple of 60,000 ms. -/
theorem DateTime.millis_floorMinute {d : DateTime} (h : d.possible = true) :
    d.floorMinute.millis = d.millis / 60000 * 60000 := by
  obtain ⟨_, _, _, _, _, _, hour, minute, second, milli⟩ := d.possible_iff.mp h
  have day : d.floorMinute.dayNumber = d.dayNumber := rfl
  simp only [DateTime.millis, day]
  simp only [DateTime.floorMinute, dayMillis, minuteMillis]
  omega

/-! ## The stamp (R9, R10) -/

theorem stampUpTo_of_afterStamp {a : Option DateTime} {b : DateTime} (h : afterStamp a b = true) : stampUpTo a (some b) := by
  cases a with
  | none => trivial
  | some x => exact Nat.le_of_lt (by simpa [afterStamp] using h)

end Sys2Proof.Machine
end

section
/-! What the slot controller and the motion planner leave alone, said once: `Grounded p q`, as `Carried` but with the
slots, their contexts and the owners free. -/

namespace Sys2Proof.Machine

/-- Line time, the phase, the ports, the filters, the words of table memory, the calendar, the settings, the guard
lines and the verify unit are as they were. -/
structure Grounded (p q : Part) : Prop where
  lineTime : q.lineTime = p.lineTime
  phase : q.phase = p.phase
  resetMs : q.resetMs = p.resetMs
  resetHold : q.resetHold = p.resetHold
  up : q.up = p.up
  down : q.down = p.down
  filter : q.filter = p.filter
  words : q.table.words = p.table.words
  cal : q.cal = p.cal
  settings : q.settings = p.settings
  guard : q.guard = p.guard
  verify : q.verify = p.verify

theorem Grounded.refl (p : Part) : Grounded p p := by constructor <;> rfl

theorem Grounded.trans {p q r : Part} (h : Grounded p q) (k : Grounded q r) : Grounded p r where
  lineTime := k.lineTime.trans h.lineTime
  phase := k.phase.trans h.phase
  resetMs := k.resetMs.trans h.resetMs
  resetHold := k.resetHold.trans h.resetHold
  up := k.up.trans h.up
  down := k.down.trans h.down
  filter := k.filter.trans h.filter
  words := k.words.trans h.words
  cal := k.cal.trans h.cal
  settings := k.settings.trans h.settings
  guard := k.guard.trans h.guard
  verify := k.verify.trans h.verify

theorem Carried.grounded {p q : Part} (h : Carried p q) : Grounded p q :=
  ⟨h.lineTime, h.phase, h.resetMs, h.resetHold, h.up, h.down, h.filter, h.words, h.cal, h.settings, h.guard, h.verify⟩

theorem Noted.grounded {p q : Part} (h : Noted p q) : Grounded p q := h.carried.grounded

theorem Grounded.sameGround {p q : Part} (h : Grounded p q) : sameGround p q :=
  ⟨h.lineTime, h.phase, h.up, h.down, h.words, h.settings, h.verify⟩

theorem foldl_grounded {α : Type} (f : Part → α → Part) (as : List α) (p : Part) (h : ∀ q a, Grounded q (f q a)) :
    Grounded p (as.foldl f p) := by
  induction as generalizing p with
  | nil => exact Grounded.refl p
  | cons a rest ih => exact (h p a).trans (ih (f p a))

/-! ## Motion -/

theorem sendPose_carried (k : FigIx) (rec : FigureRecord) (target : Int) (p : Part) : Carried p (sendPose k rec target p) := by
  unfold sendPose
  dsimp only
  split
  · have moved : ∀ (f : Outbound → Outbound) (g : LiveFigure → LiveFigure),
        Carried p (setFigure k g (setOut f (drawByte p).2)) := fun f g =>
      ((drawByte_carried p).trans (setOut_carried _ _)).trans (setFigure_carried _ _ _)
    have latched : ∀ (c : Bool) (q : Part), Carried p q → Carried p (if c then latchEvent Source.figureLag q else q) := by
      intro c q hq
      split
      · exact hq.trans (latchEvent_carried _ _)
      · exact hq
    split
    · exact (latched _ _ (moved _ _)).trans (setFigure_carried _ _ _)
    · exact latched _ _ (moved _ _)
  · exact setCounts_carried _ _

theorem visitFigure_carried (k : FigIx) (p : Part) : Carried p (visitFigure k p) := by
  have read := readFigure_carried k (figurePeriodWords (p.figures.read k).takesHome) p
  unfold visitFigure
  dsimp only
  split
  · split
    · exact read.trans (faultMoving_carried _ _ _)
    · split
      · exact read.trans (setFigure_carried _ _ _)
      · refine read.trans ?_
        unfold visitFitted
        dsimp only
        split
        · exact faultMoving_carried _ _ _
        · split
          · exact faultMoving_carried _ _ _
          · split
            · exact faultMoving_carried _ _ _
            · unfold visitTarget
              dsimp only
              split
              · exact sendPose_carried _ _ _ _
              · split
                · exact (drivenTarget_noted _ _ _).carried.trans (faultMoving_carried _ _ _)
                · exact (drivenTarget_noted _ _ _).carried.trans (sendPose_carried _ _ _ _)
  · exact Carried.refl p

theorem motionPeriod_carried (p : Part) : Carried p (motionPeriod p) := by
  unfold motionPeriod
  split
  · exact foldl_carried _ _ _ fun q k => visitFigure_carried k q
  · exact Carried.refl p

theorem releaseFigure_carried (lines : BitVec 8) (k : FigIx) (p : Part) : Carried p (releaseFigure lines k p) := by
  have dropped := setFigure_carried k (fun x => { x with hold := x.hold &&& ~~~ lines }) p
  unfold releaseFigure
  dsimp only
  split
  · split
    · exact (dropped.trans (setFigure_carried _ _ _)).trans (resync_carried _ _)
    · exact dropped.trans (setFigure_carried _ _ _)
  · split
    · exact dropped.trans (resync_carried _ _)
    · exact dropped
  · exact dropped
  · exact dropped
  · exact dropped

theorem freezeInZones_carried (n : LineIx) (zones : BitVec 8) (k : FigIx) (p : Part) :
    Carried p (freezeInZones n zones k p) := by
  unfold freezeInZones
  dsimp only
  split
  · exact (readFigure_carried _ _ p).trans (addHold_carried _ _ _ _)
  · split
    · exact (readFigure_carried _ _ p).trans (addHold_carried _ _ _ _)
    · exact readFigure_carried _ _ p

/-! ## Slots -/

theorem setSlot_grounded (i : SlotIx) (f : Slot → Slot) (p : Part) : Grounded p (setSlot i f p) := by constructor <;> rfl
theorem setContext_grounded (i : SlotIx) (f : BarrelContext → BarrelContext) (p : Part) : Grounded p (setContext i f p) := by
  constructor <;> rfl

theorem recompute_grounded (p : Part) : Grounded p (recompute p) := by
  have h := recompute_carried p
  exact ⟨h.lineTime, h.phase, h.resetMs, h.resetHold, h.up, h.down, h.filter, h.words, h.cal, h.settings, h.guard, h.verify⟩

theorem readDueSteps_grounded (s : SlotIx) (p : Part) : Grounded p (readDueSteps s p) := by
  have h := (readDueSteps_carried s p).1
  exact ⟨h.lineTime, h.phase, h.resetMs, h.resetHold, h.up, h.down, h.filter, h.words, h.cal, h.settings, h.guard, h.verify⟩

theorem startShow_grounded (slot : SlotIx) (show_ : ShowIx) (source : StartSource) (rank reps : Nat) (c : CheckedShow)
    (p : Part) : Grounded p (startShow slot show_ source rank reps c p) :=
  (((((resolveItems_carried _ _ _ p).grounded.trans (setSlot_grounded _ _ _)).trans (recompute_grounded _)).trans
    (setContext_grounded _ _ _)).trans (latchEvent_noted _ _).grounded).trans (readDueSteps_grounded _ _)

theorem idleSlot_grounded (slot : SlotIx) (p : Part) : Grounded p (idleSlot slot p) :=
  ((setSlot_grounded _ _ p).trans (setContext_grounded _ _ _)).trans (recompute_grounded _)

theorem replaceShow_grounded (slot : SlotIx) (show_ : ShowIx) (source : StartSource) (rank reps : Nat) (c : CheckedShow)
    (p : Part) : Grounded p (replaceShow slot show_ source rank reps c p) :=
  (idleSlot_grounded _ _).trans (startShow_grounded _ _ _ _ _ _ _)

theorem attemptStart_grounded (r : StartRequest) (start : Nat → CheckedShow → Part → Part) (p : Part)
    (h : ∀ reps c q, Grounded q (start reps c q)) : Grounded p (attemptStart r start p) := by
  have checked := (checkShow_noted r.showIx p).grounded
  unfold attemptStart
  dsimp only
  split
  · exact checked.trans (loseStart_noted _).grounded
  · split
    · exact checked.trans (loseStart_noted _).grounded
    · exact checked.trans (h _ _ _)

theorem becomePending_grounded (r : StartRequest) (p : Part) : Grounded p (becomePending r p) := by
  unfold becomePending
  dsimp only
  split
  · exact (loseStart_noted p).grounded.trans (setSlot_grounded _ _ _)
  · exact setSlot_grounded _ _ _

theorem requestStart_grounded (r : StartRequest) (p : Part) : Grounded p (requestStart r p) := by
  unfold requestStart
  split
  · exact (loseStart_noted p).grounded
  · split
    · exact attemptStart_grounded _ _ _ fun _ _ _ => startShow_grounded _ _ _ _ _ _ _
    · split
      · exact attemptStart_grounded _ _ _ fun _ _ _ => replaceShow_grounded _ _ _ _ _ _ _
      · exact becomePending_grounded _ _

theorem considerPending_grounded (slot : SlotIx) (p : Part) : Grounded p (considerPending slot p) := by
  unfold considerPending
  split
  · exact Grounded.refl p
  · exact (setSlot_grounded _ _ _).trans (attemptStart_grounded _ _ _ fun _ _ _ => startShow_grounded _ _ _ _ _ _ _)

theorem endShow_grounded (slot : SlotIx) (p : Part) : Grounded p (endShow slot p) := by
  unfold endShow
  split
  · exact ((((setSlot_grounded _ _ p).trans (setContext_grounded _ _ _)).trans (latchEvent_noted _ _).grounded).trans
      (recompute_grounded _)).trans (considerPending_grounded _ _)
  · exact Grounded.refl p

theorem discardPending_grounded (p : Part) (slot : SlotIx) : Grounded p (discardPending p slot) := by
  unfold discardPending
  split
  · exact (setSlot_grounded _ _ _).trans (loseStart_noted _).grounded
  · exact Grounded.refl p

theorem stopSlots_grounded (p : Part) : Grounded p (stopSlots p) := by
  rw [stopSlots_eq]
  have all : Grounded p (idled p) := by constructor <;> rfl
  exact (all.trans (foldl_grounded _ _ _ discardPending_grounded)).trans (recompute_grounded _)

/-! ## Guard effects and the calendar -/

/-- R105: an ALL-STOP with the figures held, the queues emptied and the BRAKE sent, before the slots stop. -/
def stilled (n : LineIx) (p : Part) : Part :=
  appendBrake 127 255 (setQueue [] (setOut (fun o => { o with strike := [], motion := [] })
    (allFigures.foldl (fun x k => addHold k n true x) p)))

theorem allStop_eq (n : LineIx) (p : Part) : allStop n p = stopSlots (stilled n p) := rfl

theorem stilled_carried (n : LineIx) (p : Part) : Carried p (stilled n p) := by
  have held := foldl_carried (fun x k => addHold k n true x) allFigures p fun q k => addHold_carried k n true q
  unfold stilled
  exact ((held.trans (setOut_carried _ _)).trans (setQueue_carried _ _)).trans (appendBrake_carried _ _ _)

theorem allStop_grounded (n : LineIx) (p : Part) : Grounded p (allStop n p) := by
  rw [allStop_eq]
  exact (stilled_carried n p).grounded.trans (stopSlots_grounded _)

theorem classEffect_grounded (n : LineIx) (p : Part) : Grounded p (classEffect n p) := by
  unfold classEffect
  dsimp only
  split
  · exact Grounded.refl p
  · exact (foldl_carried _ _ _ fun q k => freezeInZones_carried n _ k q).grounded
  · exact allStop_grounded n p

theorem handWinner_grounded (w : Option CalendarEntry) (b : DateTime) (p : Part) : Grounded p (handWinner w b p) := by
  unfold handWinner
  split
  · exact Grounded.refl p
  · exact requestStart_grounded _ _

theorem evaluateBoundary_grounded (b : DateTime) (p : Part) : Grounded p (evaluateBoundary b p) :=
  (readCalendar_noted _ p).grounded.trans (foldl_grounded _ _ _ fun _ _ => handWinner_grounded _ _ _)

theorem catchUpSlot_grounded (bs : List DateTime) (p : Part) (i : SlotIx) : Grounded p (catchUpSlot bs p i) := by
  unfold catchUpSlot
  dsimp only
  split
  · exact (searchSlot_noted _ _ p).grounded
  · exact (searchSlot_noted _ _ p).grounded.trans (handWinner_grounded _ _ _)

end Sys2Proof.Machine
end

section
/-! What every step keeps, for every command: `exec_kept`, and the statements that follow from it. -/

namespace Sys2Proof.Machine

/-! ## Blocks that no condition looks at, and single blocks -/

theorem inert_kept {p q : Part} (h : q = { p with
    lineTime := q.lineTime, phase := q.phase, resetMs := q.resetMs, resetHold := q.resetHold, settings := q.settings
    contexts := q.contexts, guard := q.guard, events := q.events, verify := q.verify, counts := q.counts
    freeUsed := q.freeUsed }) : Kept p q := by
  rw [h]
  exact {
    wf := id
    bounded := id
    mark := id
    ordered := id
    owned := id
    owners := id
    setpoints := id
    clock := fun h => ⟨h, stampUpTo_refl _⟩
    upSums := id
    downSums := id }

theorem setLine_kept (n : LineIx) (f : GuardLine → GuardLine) (p : Part) : Kept p (setLine n f p) := inert_kept rfl

theorem setCal_kept {f : CalendarUnit → CalendarUnit} {p : Part}
    (h : clockSound p.cal → clockSound (f p.cal) ∧ stampUpTo p.cal.stamp (f p.cal).stamp) : Kept p (setCal f p) :=
  { Kept.refl p with clock := h }

theorem setTimer_kept (t : TimerIx) (f : CueTimer → CueTimer) (p : Part) : Kept p (setTimer t f p) :=
  { Kept.refl p with clock := fun h => ⟨h, stampUpTo_refl _⟩ }

theorem setFilterUnit_kept {f : FilterUnit → FilterUnit} {p : Part}
    (management : (f p.filter).management.entries.length ≤ p.filter.management.entries.length)
    (calendar : (f p.filter).calendar.entries.length ≤ p.filter.calendar.entries.length)
    (figures : (f p.filter).figures.entries.length ≤ p.filter.figures.entries.length)
    (bells : (f p.filter).bells.entries.length ≤ p.filter.bells.entries.length) : Kept p (setFilterUnit f p) := by
  refine { Kept.refl p with bounded := ?_ }
  rintro ⟨guard, strike, motion, passDn, report, passUp, queue, hm, hc, hf, hb⟩
  exact ⟨guard, strike, motion, passDn, report, passUp, queue, management.trans hm, calendar.trans hc, figures.trans hf,
    bells.trans hb⟩

theorem setPort_kept {w : Port} {f : LinePort → LinePort} {p : Part}
    (h : portSums (portOf w p).counts → portSums (f (portOf w p)).counts) : Kept p (setPort w f p) := by
  cases w with
  | upline => exact { Kept.refl p with upSums := h }
  | downline => exact { Kept.refl p with downSums := h }

theorem setReceiver_kept (w : Port) (f : Receiver → Receiver) (p : Part) : Kept p (setReceiver w f p) := setPort_kept id

theorem countCheckError_kept (w : Port) (p : Part) : Kept p (countCheckError w p) := by
  unfold countCheckError setPortCounts
  exact setPort_kept id

theorem sendOn_kept (w : Port) (x : WireFrame) (p : Part) : Kept p (sendOn w x p) := setPort_kept id

theorem sendOwn_kept (w : Port) (f : Frame) (p : Part) : Kept p (sendOwn w f p) := sendOn_kept w _ p

/-! ## Requests -/

theorem takeManagement_kept {takes : Frame → Bool} {body : IntakeEntry → Part → Part} (p : Part)
    (h : ∀ e q, Kept q (body e q)) : Kept p (takeManagement takes body p) := by
  unfold takeManagement
  split
  · exact Kept.refl p
  next e rest entries =>
    split
    · refine Kept.trans (q := setManagement rest p) ?_ (h _ _)
      exact setFilterUnit_kept (f := fun u => { u with management := { u.management with entries := rest } })
        (by rw [entries]; exact Nat.le_succ _) (le_refl _) (le_refl _) (le_refl _)
    · exact Kept.refl p

theorem onRequest_kept {r : Request} {body : IntakeEntry → Part → Part} (p : Part) (h : ∀ e q, Kept q (body e q)) :
    Kept p (onRequest r body p) := by
  refine takeManagement_kept p fun e q => ?_
  split
  · exact h e q
  · exact answer_kept _ _ _ _

theorem timerData_kept (t : TimerIx) (p : Part) : Kept p (timerData t p).2 := by
  unfold timerData
  dsimp only
  split
  · exact Kept.refl p
  · exact drawByte_kept p

theorem answerTimer_kept (e : IntakeEntry) (t : TimerIx) (r : Result) (p : Part) : Kept p (answerTimer e t r p) :=
  (timerData_kept t p).trans (answer_kept _ _ _ _)

theorem onTimerControl_kept {a : Nat} {body : IntakeEntry → TimerIx → Part → Part} (p : Part)
    (h : ∀ e t q, Kept q (body e t q)) : Kept p (onTimerControl a body p) := by
  refine takeManagement_kept p fun e q => ?_
  split
  · split
    · exact answer_kept _ _ _ _
    · split
      · exact h _ _ _
      · exact answerTimer_kept _ _ _ _
  · exact answer_kept _ _ _ _

/-! ## Receivers, filters and polls (chapters 07 and 08) -/

theorem discardFrame_kept (w : Port) (x : RxState) (p : Part) : Kept p (discardFrame w x p) := by
  unfold discardFrame
  split
  · exact (countCheckError_kept w p).trans (setReceiver_kept _ _ _)
  · exact Kept.refl p

theorem overlongFrame_kept (w : Port) (n : Byte) (p : Part) : Kept p (overlongFrame w n p) := by
  unfold overlongFrame
  split
  · exact discardFrame_kept _ _ _
  · exact Kept.refl p

theorem runOn_kept (w : Port) (p : Part) : Kept p (runOn w p) := by
  unfold runOn
  dsimp only
  split
  · exact (countCheckError_kept w p).trans (setReceiver_kept _ _ _)
  · exact Kept.refl p

theorem becomeReady_kept (w : Port) (p : Part) : Kept p (becomeReady w p) := by
  unfold becomeReady
  dsimp only
  split
  · exact setReceiver_kept _ _ _
  · exact Kept.refl p

theorem beginBreak_kept (p : Part) : Kept p (beginBreak p) := by
  unfold beginBreak
  split
  · exact Kept.refl p
  · exact (setReceiver_kept _ _ p).trans (latchEvent_kept _ _)

theorem endBreak_kept (p : Part) : Kept p (endBreak p) := by
  unfold endBreak
  split
  · exact setReceiver_kept _ _ p
  · exact Kept.refl p

theorem setFilter_kept (i : FilterIx) (f : Filter → Filter) (p : Part) : Kept p (setFilter i f p) :=
  setFilterUnit_kept (le_refl _) (le_refl _) (le_refl _) (le_refl _)

theorem filterWriteRequest_kept (e : IntakeEntry) (p : Part) : Kept p (filterWriteRequest e p) := by
  unfold filterWriteRequest
  split
  · split
    · exact answer_kept _ _ _ _
    · exact (setFilter_kept _ _ p).trans (answer_kept _ _ _ _)
  · exact answer_kept _ _ _ _

theorem maskWriteRequest_kept (e : IntakeEntry) (p : Part) : Kept p (maskWriteRequest e p) := by
  unfold maskWriteRequest
  split
  · exact answer_kept _ _ _ _
  · split
    · exact answer_kept _ _ _ _
    · exact (setFilterUnit_kept (p := p) (le_refl _) (le_refl _) (le_refl _) (le_refl _)).trans (answer_kept _ _ _ _)

theorem filterReadRequest_kept (e : IntakeEntry) (p : Part) : Kept p (filterReadRequest e p) := by
  unfold filterReadRequest
  split <;> exact answer_kept _ _ _ _

theorem filterEnableRequest_kept (e : IntakeEntry) (p : Part) : Kept p (filterEnableRequest e p) := by
  unfold filterEnableRequest
  split
  · exact (setFilter_kept _ _ p).trans (answer_kept _ _ _ _)
  · exact (setFilter_kept _ _ p).trans (answer_kept _ _ _ _)
  · exact answer_kept _ _ _ _

theorem length_appendReport (f : Frame) (p : Part) (h : p.out.report = []) : (appendReport f p).out.report = [f] := by
  unfold appendReport
  rw [if_pos (by rw [h]; decide), h]
  rfl

/-- R136, R142: a poll sets the release mark to the entries of OQ-REPORT, and only in POLLED mode. -/
theorem answerPoll_kept (f : Frame) (p : Part) : Kept p (answerPoll f p) := by
  unfold answerPoll
  split
  · exact (appendReport_noted _ p).kept
  next polled =>
    have notFree : p.out.mode = .free → False := by rw [polled]; intro h; cases h
    split
    next empty =>
      refine (appendReport_noted (quietFrame f p) p).kept.trans ((setOut_carried _ _).kept_of_out rfl rfl id fun _ => ?_)
      have one := length_appendReport (quietFrame f p) p (List.isEmpty_iff.mp empty)
      refine ⟨by rw [setOut_out, one, List.length_singleton], fun free => (notFree ?_).elim⟩
      rw [setOut_out, (appendReport_noted (quietFrame f p) p).out] at free
      exact free
    next => exact (setOut_carried _ p).kept_of_out rfl rfl id fun _ => ⟨le_refl _, fun free => (notFree free).elim⟩

/-- R134: an intake queue whose consumer can accept a frame has room for it. -/
theorem intake_kept {a : Action} {x : IntakeEntry} {p : Part} (room : canAccept a p.filter = true) :
    Kept p (setFilterUnit (·.changeQueue a fun q => { q with entries := q.entries ++ [x] }) p) := by
  refine { Kept.refl p with bounded := ?_ }
  rintro ⟨guard, strike, motion, passDn, report, passUp, queue, hm, hc, hf, hb⟩
  refine ⟨guard, strike, motion, passDn, report, passUp, queue, ?_⟩
  have appended : ∀ {n : Nat} {l : List IntakeEntry}, decide (l.length < n) = true → (l ++ [x]).length ≤ n := by
    intro n l h
    rw [List.length_append]
    exact of_decide_eq_true h
  cases a with
  | discard => exact ⟨hm, hc, hf, hb⟩
  | poll => exact ⟨hm, hc, hf, hb⟩
  | management => exact ⟨appended room, hc, hf, hb⟩
  | calendar => exact ⟨hm, appended room, hf, hb⟩
  | figures => exact ⟨hm, hc, appended room, hb⟩
  | bells => exact ⟨hm, hc, hf, appended room⟩

theorem deliver_kept {i : FilterIx} {f : Frame} {p : Part} (room : canAccept (p.filter.filters.read i).action p.filter = true) :
    Kept p (deliver i f p) := by
  unfold deliver
  split
  · exact Kept.refl p
  · exact answerPoll_kept f p
  · exact intake_kept room

theorem overflowIntake_kept (i : FilterIx) (p : Part) : Kept p (overflowIntake i p) := by
  refine Kept.trans (setFilterUnit_kept ?_ ?_ ?_ ?_) (latchEvent_kept _ _) <;>
    cases (p.filter.filters.read i).action <;> exact le_refl _

/-! ## Received frames (R121) -/

/-- R121: a frame of port `w` that has been counted received is accounted for: `q` has it forwarded, consumed or
dropped, and leaves the other port's counts as they were. -/
structure Counted (w : Port) (p q : Part) : Prop extends Safe p q where
  one : (portOf w p).counts.received = (portOf w p).counts.forwarded + (portOf w p).counts.consumed +
      (portOf w p).counts.dropped + 1 → (portOf w p).counts.received ≤ 65535 → portSums (portOf w q).counts
  other : ∀ v, v ≠ w → portSums (portOf v p).counts → portSums (portOf v q).counts

theorem portOf_setPort (w v : Port) (f : LinePort → LinePort) (p : Part) :
    portOf v (setPort w f p) = if v = w then f (portOf w p) else portOf v p := by
  cases w <;> cases v <;> rfl

theorem setPortCounts_safe (w : Port) (f : PortCounts → PortCounts) (p : Part) : Safe p (setPortCounts w f p) := by
  cases w <;> exact { (Kept.refl p).toSafe with }

/-- One count of a port rises by one while the sum leaves room for it. -/
theorem setPortCounts_counted {w : Port} {f : PortCounts → PortCounts} {p : Part} (received : ∀ c, (f c).received = c.received)
    (sum : ∀ c, c.forwarded + c.consumed + c.dropped < 65535 →
      (f c).forwarded + (f c).consumed + (f c).dropped = c.forwarded + c.consumed + c.dropped + 1) :
    Counted w p (setPortCounts w f p) where
  toSafe := setPortCounts_safe w f p
  one h room := by
    unfold portSums setPortCounts
    rw [portOf_setPort, if_pos rfl]
    dsimp only
    rw [received, sum _ (by omega), h]
  other v hv h := by
    unfold portSums setPortCounts
    rw [portOf_setPort, if_neg hv]
    exact h

/-- Parts that leave both ports' counts alone can stand before the count. -/
theorem Counted.after {w : Port} {p q r : Part} (h : Safe p q) (up : q.up.counts = p.up.counts)
    (down : q.down.counts = p.down.counts) (k : Counted w q r) : Counted w p r := by
  have same : ∀ v, (portOf v q).counts = (portOf v p).counts := by
    intro v; cases v <;> assumption
  have one := k.one
  have other := k.other
  simp only [same] at one other
  exact ⟨h.trans k.toSafe, one, other⟩

theorem countForwarded_counted (w : Port) (p : Part) :
    Counted w p (setPortCounts w (fun c => { c with forwarded := bump c.forwarded }) p) :=
  setPortCounts_counted (fun _ => rfl) fun c h => by simp only [bump]; omega
theorem countConsumed_counted (w : Port) (p : Part) : Counted w p (countConsumed w p) :=
  setPortCounts_counted (fun _ => rfl) fun c h => by simp only [bump]; omega
theorem countDropped_counted (w : Port) (p : Part) : Counted w p (countDropped w p) :=
  setPortCounts_counted (fun _ => rfl) fun c h => by simp only [bump]; omega

theorem appendPass_kept {w : Port} {x : WireFrame} {p : Part} (room : (passQueue w p.out).length < passCapacity) :
    Kept p (setOut (·.appendPass w x) p) := by
  refine (setOut_carried _ p).kept_of_out rfl rfl ?_ ?_
  · rintro ⟨guard, strike, motion, passDn, report, passUp, rest⟩
    refine ⟨?_, ?_, ?_, ?_, ?_, ?_, rest⟩ <;> cases w <;>
      simp [Outbound.appendPass, passQueue, passCapacity] at * <;> omega
  · cases w <;> exact id

theorem forwardFrame_counted (w : Port) (x : WireFrame) (p : Part) : Counted w p (forwardFrame w x p) := by
  unfold forwardFrame
  split
  next room => exact .after (appendPass_kept room).toSafe rfl rfl (countForwarded_counted _ _)
  next =>
    have lost := (setCounts_noted (fun c => { c with passDrop := bump c.passDrop }) p).trans (latchEvent_noted Source.passDrop _)
    exact .after lost.kept.toSafe (by rw [lost.up]) (by rw [lost.down]) (countDropped_counted _ _)

theorem answerPoll_carried (f : Frame) (p : Part) : Carried p (answerPoll f p) := by
  unfold answerPoll
  split
  · exact (appendReport_noted _ p).carried
  · split
    · exact (appendReport_noted _ p).carried.trans (setOut_carried _ _)
    · exact setOut_carried _ p

theorem deliver_ports (i : FilterIx) (f : Frame) (p : Part) : (deliver i f p).up = p.up ∧ (deliver i f p).down = p.down := by
  unfold deliver
  split
  · exact ⟨rfl, rfl⟩
  · exact ⟨(answerPoll_carried f p).up, (answerPoll_carried f p).down⟩
  · exact ⟨rfl, rfl⟩

theorem overflowIntake_ports (i : FilterIx) (p : Part) :
    (overflowIntake i p).up = p.up ∧ (overflowIntake i p).down = p.down :=
  ⟨(latchEvent_noted _ _).up, (latchEvent_noted _ _).down⟩

theorem winningFilter_accepts {w : Port} {f : Frame} {p : Part} {i : FilterIx} (h : winningFilter w f p = some i) :
    canAccept (p.filter.filters.read i).action p.filter = true := by
  have := List.find?_some h
  exact this

theorem matchFrame_counted (w : Port) (x : WireFrame) (p : Part) : Counted w p (matchFrame w x p) := by
  unfold matchFrame
  split
  next i won =>
    have delivered := deliver_kept (f := x.frame) (winningFilter_accepts won)
    obtain ⟨up, down⟩ := deliver_ports i x.frame p
    dsimp only
    split
    · exact .after delivered.toSafe (by rw [up]) (by rw [down]) (forwardFrame_counted _ _ _)
    · exact .after delivered.toSafe (by rw [up]) (by rw [down]) (countConsumed_counted _ _)
  · split
    · exact forwardFrame_counted _ _ _
    next i _ =>
      obtain ⟨up, down⟩ := overflowIntake_ports i p
      dsimp only
      split
      · exact .after (overflowIntake_kept i p).toSafe (by rw [up]) (by rw [down]) (forwardFrame_counted _ _ _)
      · exact .after (overflowIntake_kept i p).toSafe (by rw [up]) (by rw [down]) (countDropped_counted _ _)

theorem receiveFrame_safe (w : Port) (x : WireFrame) (p : Part) : Safe p (receiveFrame w x p) := by
  unfold receiveFrame
  split
  · dsimp only
    split
    · exact ((setReceiver_kept w _ p).toSafe.trans (setPortCounts_safe w _ _)).trans (matchFrame_counted _ _ _).toSafe
    · exact (setReceiver_kept w _ p).toSafe.trans (countCheckError_kept _ _).toSafe
  · exact (Kept.refl p).toSafe

theorem receiveFrame_sums (w : Port) (x : WireFrame) (p : Part) (h : ∀ v, portSums (portOf v p).counts)
    (room : (portOf w p).counts.received < 65535) (v : Port) : portSums (portOf v (receiveFrame w x p)).counts := by
  unfold receiveFrame
  split
  · dsimp only
    split
    · have counted := matchFrame_counted w x (setPortCounts w (fun c => { c with received := bump c.received })
        (setReceiver w (fun r => { r with state := .hunt, runOn := true }) p))
      by_cases hv : v = w
      · subst hv
        have sum := h v
        unfold portSums at sum
        refine counted.one ?_ ?_ <;>
          simp only [setPortCounts, setReceiver, portOf_setPort, if_true, bump] <;> omega
      · refine counted.other v hv ?_
        simp only [setPortCounts, setReceiver, portOf_setPort, if_neg hv]
        exact h v
    · have kept := (setReceiver_kept w (fun r => { r with state := .hunt, runOn := true }) p).trans (countCheckError_kept w _)
      cases v with
      | upline => exact kept.upSums (h .upline)
      | downline => exact kept.downSums (h .downline)
  · exact h v

/-! ## Transmitters (chapter 09) -/

theorem completeStrike_kept (e : StrikeFrame) (p : Part) : Kept p (completeStrike e p).2 := by
  have read := readBell_kept e.bell bellCompletionWords p
  have sent : ∀ (rec : BellRecord) (n : Nat) (q : Part), Kept q (sendStrike e rec n q).2 :=
    fun rec n q => (drawByte_kept q).trans (setBell_kept _ _ _)
  unfold completeStrike
  dsimp only
  split
  · exact read
  · split
    · exact (read.trans (setCounts_kept _ _)).trans (latchEvent_kept _ _)
    · split
      · exact read.trans (setCounts_kept (fun c => { c with noBell := bump c.noBell }) _)
      · refine read.trans ?_
        unfold chargeStrike
        dsimp only
        split
        · exact sent _ _ _
        · split
          · exact (setCounts_kept _ _).trans (sent _ _ _)
          · exact (setCounts_kept _ _).trans (latchEvent_kept _ _)

theorem startHammer_kept {e : StrikeFrame} {rest : List StrikeFrame} {p : Part} (h : p.out.strike = e :: rest) :
    Kept p (startHammer e rest p).2 := by
  have taken : Kept p (setOut (fun o => { o with strike := rest }) p) :=
    setOut_shrunk_kept (le_refl _) (by rw [h]; exact Nat.le_succ _) (le_refl _) (le_refl _) (le_refl _) rfl rfl rfl
  have done := taken.trans (completeStrike_kept e _)
  unfold startHammer
  dsimp only
  split
  · exact (done.trans (sendOwn_kept _ _ _)).trans (releaseDue_kept _)
  · exact done.trans (releaseDue_kept _)

theorem takeGuard_kept {f : Frame} {rest : List Frame} {p : Part} (h : p.out.guard = f :: rest) :
    Kept p (setOut (fun o => { o with guard := rest }) p) :=
  setOut_shrunk_kept (by rw [h]; exact Nat.le_succ _) (le_refl _) (le_refl _) (le_refl _) (le_refl _) rfl rfl rfl
theorem takePose_kept {m : PoseEntry} {rest : List PoseEntry} {p : Part} (h : p.out.motion = m :: rest) :
    Kept p (setOut (fun o => { o with motion := rest }) p) :=
  setOut_shrunk_kept (le_refl _) (le_refl _) (by rw [h]; exact Nat.le_succ _) (le_refl _) (le_refl _) rfl rfl rfl
theorem takePassDn_kept {x : WireFrame} {rest : List WireFrame} {p : Part} (h : p.out.passDn = x :: rest) :
    Kept p (setOut (fun o => { o with passDn := rest }) p) :=
  setOut_shrunk_kept (le_refl _) (le_refl _) (le_refl _) (by rw [h]; exact Nat.le_succ _) (le_refl _) rfl rfl rfl
theorem takePassUp_kept {x : WireFrame} {rest : List WireFrame} {p : Part} (h : p.out.passUp = x :: rest) :
    Kept p (setOut (fun o => { o with passUp := rest }) p) :=
  setOut_shrunk_kept (le_refl _) (le_refl _) (le_refl _) (le_refl _) (by rw [h]; exact Nat.le_succ _) rfl rfl rfl

theorem chooseOnce_kept (p : Part) : Kept p (chooseOnce p).2 := by
  unfold chooseOnce
  split
  · exact Kept.refl p
  · split
    · exact Kept.refl p
    next h =>
      dsimp only
      exact (takeGuard_kept h).trans (sendOwn_kept _ _ _)
  · split
    · exact Kept.refl p
    next h => exact startHammer_kept h
  · split
    · exact Kept.refl p
    next h =>
      dsimp only
      exact (takePose_kept h).trans (sendOwn_kept _ _ _)
  · split
    · exact Kept.refl p
    next h =>
      dsimp only
      exact (takePassDn_kept h).trans (sendOn_kept _ _ _)

theorem chooseLoop_kept (n : Nat) (p : Part) : Kept p (chooseLoop n p) := by
  induction n generalizing p with
  | zero => exact Kept.refl p
  | succ n ih =>
    unfold chooseLoop
    dsimp only
    split
    · exact (chooseOnce_kept p).trans (ih _)
    · exact chooseOnce_kept p

theorem startDownline_kept (p : Part) : Kept p (startDownline p) := by
  unfold startDownline
  split
  · exact chooseLoop_kept _ p
  · exact Kept.refl p

/-- R143: the entry that leaves takes the release mark down with it. -/
theorem takeReport_kept {f : Frame} {rest : List Frame} {p : Part} (h : p.out.report = f :: rest) :
    Kept p (setOut (·.takeReport rest) p) := by
  refine (setOut_carried _ p).kept_of_out rfl rfl ?_ ?_
  · rintro ⟨guard, strike, motion, passDn, report, others⟩
    rw [h, List.length_cons] at report
    exact ⟨guard, strike, motion, passDn, by simp only [setOut_out, Outbound.takeReport]; omega, others⟩
  · rintro ⟨mark, free⟩
    rw [h, List.length_cons] at mark
    simp only [markBounded, setOut_out, Outbound.takeReport]
    cases mode : p.out.mode with
    | free => simp [free mode]
    | polled => simp; omega

theorem startUpline_kept (p : Part) : Kept p (startUpline p) := by
  unfold startUpline
  split
  · split
    · exact Kept.refl p
    · split
      · exact Kept.refl p
      next h => exact (takeReport_kept h).trans (sendOwn_kept _ _ _)
    · split
      · exact Kept.refl p
      next h => exact (takePassUp_kept h).trans (sendOn_kept _ _ _)
  · exact Kept.refl p

theorem flush_kept (name : QueueName) (p : Part) : Kept p (setOut (·.flush name) p) := by
  refine (setOut_carried _ p).kept_of_out rfl rfl ?_ ?_
  · rintro ⟨guard, strike, motion, passDn, report, passUp, rest⟩
    cases name with
    | guard => exact ⟨Nat.zero_le _, strike, motion, passDn, report, passUp, rest⟩
    | strike => exact ⟨guard, Nat.zero_le _, motion, passDn, report, passUp, rest⟩
    | motion => exact ⟨guard, strike, Nat.zero_le _, passDn, report, passUp, rest⟩
    | passDn => exact ⟨guard, strike, motion, Nat.zero_le _, report, passUp, rest⟩
    | report => exact ⟨guard, strike, motion, passDn, Nat.zero_le _, passUp, rest⟩
    | passUp => exact ⟨guard, strike, motion, passDn, report, Nat.zero_le _, rest⟩
  · cases name with
    | report => exact fun _ => ⟨le_refl _, fun _ => rfl⟩
    | guard | strike | motion | passDn | passUp => exact id

theorem queueFlushRequest_kept (e : IntakeEntry) (p : Part) : Kept p (queueFlushRequest e p) := by
  unfold queueFlushRequest
  split
  · exact answer_kept _ _ _ _
  · split
    · exact answer_kept _ _ _ _
    · dsimp only
      split
      · exact ((flush_kept _ p).trans (releaseDue_kept _)).trans (answer_kept _ _ _ _)
      · exact (flush_kept _ p).trans (answer_kept _ _ _ _)

/-! ## Clock, calendar and timers (chapter 01) -/

theorem CalendarUnit.advanced_sound (c : CalendarUnit) (correct : Bool) (h : clockSound c) :
    clockSound (c.advanced correct) ∧ stampUpTo c.stamp (c.advanced correct).stamp := by
  unfold CalendarUnit.advanced
  split
  · exact ⟨h, stampUpTo_refl _⟩
  · split
    · exact ⟨⟨DateTime.possible_later _ _, h.2⟩, stampUpTo_refl _⟩
    · split
      · exact ⟨h, stampUpTo_refl _⟩
      · exact ⟨⟨DateTime.possible_later _ _, h.2⟩, stampUpTo_refl _⟩

theorem advanceClock_kept (p : Part) : Kept p (advanceClock p) := setCal_kept (CalendarUnit.advanced_sound _ _)

theorem handWinner_kept (w : Option CalendarEntry) (b : DateTime) (p : Part) : Kept p (handWinner w b p) := by
  unfold handWinner
  split
  · exact Kept.refl p
  · exact requestStart_kept _ _

theorem evaluateBoundary_kept (b : DateTime) (p : Part) : Kept p (evaluateBoundary b p) :=
  (readCalendar_noted _ p).kept.trans (foldl_kept _ _ _ fun _ _ => handWinner_kept _ _ _)

theorem catchUpSlot_kept (bs : List DateTime) (p : Part) (i : SlotIx) : Kept p (catchUpSlot bs p i) := by
  unfold catchUpSlot
  dsimp only
  split
  · exact (searchSlot_noted _ _ p).kept
  · exact (searchSlot_noted _ _ p).kept.trans (handWinner_kept _ _ _)

/-- R9, R13: the stamp is only raised, and only while the clock is SET. -/
theorem raisedStamp_kept (p : Part) (set : p.cal.clockState = .set) :
    Kept p (setCal (fun c => { c with stamp := raisedStamp c.stamp c.clock }) p) := by
  refine setCal_kept fun h => ⟨⟨h.1, fun unset => ?_⟩, ?_⟩
  · have : p.cal.clockState = .unset := unset
    rw [set] at this
    cases this
  · simp only [raisedStamp]
    split
    next later => exact stampUpTo_of_afterStamp later
    next => exact stampUpTo_refl _

theorem passBoundary_kept (p : Part) : Kept p (passBoundary p) := by
  unfold passBoundary
  split
  next passed =>
    simp only [boundaryPassed, Bool.and_eq_true, decide_eq_true_eq] at passed
    have cal : (evaluateBoundary p.cal.clock.floorMinute p).cal = p.cal := (evaluateBoundary_grounded _ _).cal
    refine (evaluateBoundary_kept _ p).trans (setCal_kept ?_)
    rw [cal]
    refine fun h => ⟨⟨h.1, fun unset => ?_⟩, stampUpTo_of_afterStamp passed.2⟩
    have : p.cal.clockState = .unset := unset
    rw [passed.1] at this
    cases this
  next => exact Kept.refl p

end Sys2Proof.Machine
end

section
/-! What every step keeps: the commands of the calendar, the guards, the management unit and the resets, and the
statements on what every step keeps. -/

namespace Sys2Proof.Machine

/-! ## Catching up and TIME frames (R4 to R13) -/

theorem catchUpSlots_grounded (bs : List DateTime) (p : Part) : Grounded p (allSlots.foldl (catchUpSlot bs) p) :=
  foldl_grounded _ _ _ (catchUpSlot_grounded bs)

theorem catchUp_kept (p : Part) (set : p.cal.clockState = .set) : Kept p (catchUp p) := by
  unfold catchUp
  dsimp only
  generalize skippedBoundaries p.cal.stamp p.cal.clock.millis p.settings.catchUp = bs
  have served : Kept p (allSlots.foldl (catchUpSlot bs) p) := foldl_kept _ _ _ (catchUpSlot_kept bs)
  have cal := (catchUpSlots_grounded bs p).cal
  generalize allSlots.foldl (catchUpSlot bs) p = q at served cal
  exact served.trans (raisedStamp_kept q (by rw [cal]; exact set))

theorem setClock_kept (t : DateTime) (p : Part) (possible : t.possible = true) (unset : p.cal.clockState = .unset) :
    Kept p (setClock t p) := by
  refine Kept.trans (q := setCal (fun c => { c with clock := t, clockState := .set, slew := 0, stamp := some t.floorMinute }) p)
    (setCal_kept fun h => ⟨⟨possible, fun e => by cases e⟩, ?_⟩) (latchEvent_kept _ _)
  rw [h.2 unset]
  trivial

theorem stepClock_kept (t : DateTime) (d : Int) (p : Part) (possible : t.possible = true) (set : p.cal.clockState = .set) :
    Kept p (stepClock t d p) := by
  have stepped : Kept p (setCal (fun c => { c with clock := t, slew := 0 }) p) :=
    setCal_kept fun h => ⟨⟨possible, h.2⟩, stampUpTo_refl _⟩
  have latched := latchEvent_noted Source.clockStepped (setCal (fun c => { c with clock := t, slew := 0 }) p)
  have isSet : (latchEvent Source.clockStepped (setCal (fun c => { c with clock := t, slew := 0 }) p)).cal.clockState = .set := by
    rw [latched.cal]
    exact set
  unfold stepClock
  dsimp only
  split
  · exact (stepped.trans latched.kept).trans (catchUp_kept _ isSet)
  · exact stepped.trans latched.kept

theorem setSlew_kept (d : Int) (p : Part) : Kept p (setCal (fun c => { c with slew := d }) p) :=
  setCal_kept fun h => ⟨h, stampUpTo_refl _⟩

theorem useTime_kept (t : DateTime) (p : Part) (possible : t.possible = true) : Kept p (useTime t p) := by
  unfold useTime
  split
  next unset => exact setClock_kept t p possible unset
  next set =>
    dsimp only
    split
    · exact setSlew_kept _ p
    · exact stepClock_kept t _ p possible set

theorem rejectTime_kept (p : Part) : Kept p (rejectTime p) := setCal_kept fun h => ⟨h, stampUpTo_refl _⟩

theorem setCalendarIntake_kept {f : IntakeQueue → IntakeQueue} {p : Part}
    (h : (f p.filter.calendar).entries.length ≤ p.filter.calendar.entries.length) : Kept p (setCalendarIntake f p) :=
  setFilterUnit_kept (f := fun u => { u with calendar := f u.calendar }) (le_refl _) h (le_refl _) (le_refl _)

theorem takeTimeFrame_kept (p : Part) : Kept p (takeTimeFrame p) := by
  unfold takeTimeFrame
  split
  · exact Kept.refl p
  next e rest entries =>
    have taken : Kept p (setCalendarIntake (fun b => { b with entries := rest }) p) :=
      setCalendarIntake_kept (by rw [entries]; exact Nat.le_succ _)
    dsimp only
    split
    · exact (taken.trans (setCalendarIntake_kept (le_refl _))).trans (rejectTime_kept _)
    · split
      · exact taken.trans (useTime_kept _ _ (DateTime.possible_later _ _))
      · exact taken.trans (rejectTime_kept _)

/-! ## Cue timers (R17 to R19) -/

theorem overflowTimer_kept (t : TimerIx) (p : Part) : Kept p (overflowTimer t p) := by
  have past : Kept p (latchEvent (Source.timer t) (setTimer t (fun x => { x with count := x.reload }) p)) :=
    (setTimer_kept _ _ p).trans (latchEvent_kept _ _)
  unfold overflowTimer
  dsimp only
  split
  · exact past.trans (setTimer_kept _ _ _)
  · exact (past.trans (requestStart_kept _ _)).trans (setTimer_kept _ _ _)

theorem countPastTop_kept (t : TimerIx) (p : Part) : Kept p (countPastTop t p) := by
  unfold countPastTop
  dsimp only
  split
  · exact overflowTimer_kept t p
  · exact Kept.refl p

theorem setTimer_answered_kept (e : IntakeEntry) (t : TimerIx) (r : Result) (f : CueTimer → CueTimer) (p : Part) :
    Kept p (answerTimer e t r (setTimer t f p)) := (setTimer_kept _ _ p).trans (answerTimer_kept _ _ _ _)

theorem timerStepRequest_kept (e : IntakeEntry) (t : TimerIx) (p : Part) : Kept p (timerStepRequest e t p) := by
  unfold timerStepRequest
  dsimp only
  split
  · exact answerTimer_kept _ _ _ _
  · split
    · exact (overflowTimer_kept t p).trans (answerTimer_kept _ _ _ _)
    · exact setTimer_answered_kept _ _ _ _ p

theorem timerSetBindingRequest_kept (e : IntakeEntry) (t : TimerIx) (p : Part) : Kept p (timerSetBindingRequest e t p) := by
  unfold timerSetBindingRequest
  split
  · exact setTimer_answered_kept _ _ _ _ p
  · split
    · exact setTimer_answered_kept _ _ _ _ p
    · exact answerTimer_kept _ _ _ _

/-! ## Intake of the bells and the figures -/

theorem setBellsIntake_kept {f : IntakeQueue → IntakeQueue} {p : Part}
    (h : (f p.filter.bells).entries.length ≤ p.filter.bells.entries.length) : Kept p (setBellsIntake f p) :=
  setFilterUnit_kept (f := fun u => { u with bells := f u.bells }) (le_refl _) (le_refl _) (le_refl _) h

theorem setFiguresIntake_kept {f : IntakeQueue → IntakeQueue} {p : Part}
    (h : (f p.filter.figures).entries.length ≤ p.filter.figures.entries.length) : Kept p (setFiguresIntake f p) :=
  setFilterUnit_kept (f := fun u => { u with figures := f u.figures }) (le_refl _) (le_refl _) h (le_refl _)

theorem bellFaulted_kept (b : BellIx) (p : Part) : Kept p (bellFaulted b p) :=
  ((setBell_kept _ _ p).trans (withdrawBell_kept _ _)).trans (latchEvent_kept _ _)

theorem coilReport_kept (e : IntakeEntry) (status : CoilStatus) (p : Part) : Kept p (coilReport e status p) := by
  have scanned := (scanBells_noted e.frame.source.toNat (e.frame.arg 0) (status = .hot) allBells p).kept
  unfold coilReport
  dsimp only
  split
  · exact scanned.trans (setCounts_kept _ _)
  · split
    · exact scanned
    · exact scanned.trans (bellFaulted_kept _ _)
    · exact scanned.trans (bellFaulted_kept _ _)
    · exact scanned.trans (setBell_kept _ _ _)

theorem takeCoilReport_kept (p : Part) : Kept p (takeCoilReport p) := by
  unfold takeCoilReport
  split
  · exact Kept.refl p
  next e rest entries =>
    have taken : Kept p (setBellsIntake (fun b => { b with entries := rest }) p) :=
      setBellsIntake_kept (by rw [entries]; exact Nat.le_succ _)
    dsimp only
    split
    · exact (taken.trans (setBellsIntake_kept (le_refl _))).trans (setCounts_kept _ _)
    · split
      · exact taken.trans (setCounts_kept _ _)
      · exact taken.trans (coilReport_kept _ _ _)

theorem takePositionReport_kept (p : Part) : Kept p (takePositionReport p) := by
  unfold takePositionReport
  split
  · exact Kept.refl p
  next e rest entries =>
    have taken : Kept p (setFiguresIntake (fun b => { b with entries := rest }) p) :=
      setFiguresIntake_kept (by rw [entries]; exact Nat.le_succ _)
    dsimp only
    split
    · exact (taken.trans (setFiguresIntake_kept (le_refl _))).trans (setCounts_kept _ _)
    · split
      · exact (taken.trans (scanFigures_kept _ _ _ _)).trans (setCounts_kept _ _)
      · exact (taken.trans (scanFigures_kept _ _ _ _)).trans (reportFigure_kept _ _ _ _ _)

theorem coolTick_kept (p : Part) : Kept p (coolTick p) := by
  unfold coolTick
  split
  · refine foldl_kept _ _ _ fun q b => ?_
    unfold coolBell
    dsimp only
    split
    · exact Kept.refl q
    · split
      · exact readBell_kept _ _ q
      · exact (readBell_kept _ _ q).trans (setBell_kept _ _ _)
  · exact Kept.refl p

theorem bellServiceRequest_kept (e : IntakeEntry) (p : Part) : Kept p (bellServiceRequest e p) := by
  unfold bellServiceRequest
  split
  · exact (setBell_kept _ _ p).trans (answer_kept _ _ _ _)
  · exact ((setBell_kept _ _ p).trans (withdrawBell_kept _ _)).trans (answer_kept _ _ _ _)
  · exact answer_kept _ _ _ _

theorem figureReleaseRequest_kept (e : IntakeEntry) (p : Part) : Kept p (figureReleaseRequest e p) := by
  unfold figureReleaseRequest
  refine Kept.trans (foldl_kept _ _ p fun q k => ?_) (answer_kept _ _ _ _)
  split
  · exact releaseFigure_kept _ _ _
  · exact Kept.refl q

/-! ## Shows by request -/

theorem judgeShowStart_kept (e : IntakeEntry) (i : SlotIx) (k : ShowIx) (p : Part) : Kept p (judgeShowStart e i k p) := by
  have checked := (checkShow_noted k p).kept
  unfold judgeShowStart
  dsimp only
  split
  · exact checked.trans (answer_kept _ _ _ _)
  · split
    · exact checked.trans (answer_kept _ _ _ _)
    · split
      · exact (checked.trans (replaceShow_kept _ _ _ _ _ _ _)).trans (answer_kept _ _ _ _)
      · exact (checked.trans (startShow_kept _ _ _ _ _ _ _)).trans (answer_kept _ _ _ _)

theorem showStartRequest_kept (e : IntakeEntry) (p : Part) : Kept p (showStartRequest e p) := by
  unfold showStartRequest
  split
  · split
    · exact answer_kept _ _ _ _
    · split
      · exact answer_kept _ _ _ _
      · exact judgeShowStart_kept _ _ _ _
  · exact answer_kept _ _ _ _

theorem showStopRequest_kept (e : IntakeEntry) (p : Part) : Kept p (showStopRequest e p) := by
  unfold showStopRequest
  split
  · exact answer_kept _ _ _ _
  · split
    · exact (stopShow_kept _ _ _).trans (answer_kept _ _ _ _)
    · exact answer_kept _ _ _ _

theorem showHoldRequest_kept (e : IntakeEntry) (p : Part) : Kept p (showHoldRequest e p) := by
  unfold showHoldRequest
  split
  · exact answer_kept _ _ _ _
  · split
    next running => exact (setSlot_kept (by simp [Slot.busy, running]) rfl).trans (answer_kept _ _ _ _)
    next => exact answer_kept _ _ _ _

theorem showResumeRequest_kept (e : IntakeEntry) (p : Part) : Kept p (showResumeRequest e p) := by
  unfold showResumeRequest
  split
  · exact answer_kept _ _ _ _
  · split
    next held =>
      exact (((setSlot_kept (by simp [Slot.busy, Slot.resumed, held]) rfl).trans (readDueSteps_kept _ _)).trans
        (endShow_kept _ _)).trans (answer_kept _ _ _ _)
    next => exact answer_kept _ _ _ _

/-! ## Guards (chapter 06) -/

theorem sampleInputs_kept (levels : BitVec 8) (p : Part) : Kept p (sampleInputs levels p) :=
  (foldl_kept _ allLines p fun q n => setLine_kept n _ q).trans (inert_kept rfl)

theorem stilled_kept (n : LineIx) (p : Part) : Kept p (stilled n p) := by
  have held := foldl_kept (fun x k => addHold k n true x) allFigures p fun q k => addHold_kept k n true q
  have emptied : ∀ q, Kept q (setQueue [] (setOut (fun o => { o with strike := [], motion := [] }) q)) := fun q =>
    Kept.trans (setOut_shrunk_kept (le_refl _) (Nat.zero_le _) (Nat.zero_le _) (le_refl _) (le_refl _) rfl rfl rfl)
      (setQueue_kept (fun _ => Nat.zero_le _) (fun _ => List.Pairwise.nil) fun _ _ h => by cases h)
  unfold stilled
  exact (held.trans (emptied _)).trans (appendBrake_kept _ _ _)

theorem allStop_kept (n : LineIx) (p : Part) : Kept p (allStop n p) := by
  rw [allStop_eq]
  exact (stilled_kept n p).trans (stopSlots_kept _)

theorem classEffect_kept (n : LineIx) (p : Part) : Kept p (classEffect n p) := by
  unfold classEffect
  dsimp only
  split
  · exact Kept.refl p
  · exact foldl_kept _ _ _ fun q k => freezeInZones_kept n _ k q
  · exact allStop_kept n p

theorem assertLine_kept (n : LineIx) (p : Part) : Kept p (assertLine n p) := by
  unfold assertLine
  exact ((setLine_kept _ _ p).trans (latchEvent_kept _ _)).trans (classEffect_kept _ _)

theorem takeAssertion_kept (n : LineIx) (p : Part) : Kept p (takeAssertion n p) := by
  unfold takeAssertion
  dsimp only
  split
  · exact (setLine_kept _ _ p).trans (assertLine_kept _ _)
  · exact Kept.refl p

theorem deassertLine_kept (n : LineIx) (p : Part) : Kept p (deassertLine n p) := by
  unfold deassertLine
  dsimp only
  split
  · exact setLine_kept _ _ p
  · exact Kept.refl p

theorem takeDeassertion_kept (n : LineIx) (p : Part) : Kept p (takeDeassertion n p) := by
  unfold takeDeassertion
  dsimp only
  split
  · exact (setLine_kept _ _ p).trans (deassertLine_kept _ _)
  · exact Kept.refl p

theorem endSettle_kept (n : LineIx) (p : Part) : Kept p (endSettle n p) := by
  unfold endSettle
  split
  · exact (setLine_kept _ _ p).trans (foldl_kept _ _ _ fun q k => removeHold_kept n k q)
  · exact Kept.refl p

theorem endPulse_kept (pin : Pin) (p : Part) : Kept p (endPulse pin p) := by
  cases pin <;> exact inert_kept rfl

theorem guardReadRequest_kept (e : IntakeEntry) (p : Part) : Kept p (guardReadRequest e p) :=
  Kept.trans (inert_kept rfl) (answer_kept _ _ _ _)

theorem eventClearRequest_kept (e : IntakeEntry) (p : Part) : Kept p (eventClearRequest e p) :=
  Kept.trans (inert_kept (q := clearEvents _ p) rfl) (answer_kept _ _ _ _)

/-! ## APPLY CONFIG (R161) -/

/-- R142, R143: a new release mode begins with the mark at 0. -/
theorem applyLevels_kept (w : Nat → Word) (p : Part) : Kept p (applyLevels w p) := by
  refine (setOut_carried _ p).kept_of_out rfl rfl id ?_
  rintro ⟨mark, free⟩
  simp only [markBounded, setOut_out]
  split
  next same => exact ⟨mark, fun h => free (same ▸ h)⟩
  next => exact ⟨Nat.zero_le _, fun _ => rfl⟩

theorem applyEvents_kept (w : Nat → Word) (p : Part) : Kept p (applyEvents w p) := by
  have configured : Kept p { p with events := p.events.configured w } := inert_kept rfl
  unfold applyEvents
  dsimp only
  split
  · exact configured
  · exact configured.trans (raiseAttention_noted _).kept

theorem reexamine_kept (old : GuardLine) (n : LineIx) (p : Part) : Kept p (reexamine old n p) := by
  unfold reexamine
  dsimp only
  split
  · exact assertLine_kept n p
  · exact deassertLine_kept n p
  · split
    · exact Kept.refl p
    · exact (latchEvent_kept _ p).trans (classEffect_kept _ _)
  · unfold reexamineSettle
    dsimp only
    split
    · exact setLine_kept _ _ p
    · exact setLine_kept _ _ p
    · exact Kept.refl p
    · exact Kept.refl p

theorem applyGuards_kept (w : Nat → Word) (p : Part) : Kept p (applyGuards w p) :=
  (foldl_kept (fun x n => setLine n (fun l => { l with config := guardConfigOf w n }) x) allLines p
    fun q n => setLine_kept n _ q).trans (foldl_kept _ _ _ fun q n => reexamine_kept _ n q)

theorem applyTimers_kept (w : Nat → Word) (p : Part) : Kept p (applyTimers w p) :=
  { Kept.refl p with clock := fun h => ⟨h, stampUpTo_refl _⟩ }

theorem applyTests_kept (old : Settings) (p : Part) : Kept p (applyTests old p) := by
  have read : Kept p (if p.settings.lookahead = old.lookahead then p else allSlots.foldl (fun x s => readDueSteps s x) p) := by
    split
    · exact Kept.refl p
    · exact foldl_kept _ _ _ fun q s => readDueSteps_kept s q
  unfold applyTests
  dsimp only
  split
  · exact read
  · exact read.trans (releaseDue_kept _)

theorem applyBlock_kept (w : Nat → Word) (p : Part) : Kept p (applyBlock w p) := by
  have settings : Kept p (applySettings w p) := inert_kept rfl
  unfold applyBlock
  exact (((((settings.trans (applyLevels_kept _ _)).trans (applyEvents_kept _ _)).trans (applyGuards_kept _ _)).trans
    (applyTimers_kept _ _)).trans (foldl_kept _ _ _ fun q k => clampFigure_kept k q)).trans (applyTests_kept _ _)

theorem applyConfigRequest_kept (e : IntakeEntry) (p : Part) : Kept p (applyConfigRequest e p) := by
  have read := (readEach_noted .management (List.range 64) p).kept
  unfold applyConfigRequest
  dsimp only
  split
  · exact read.trans (answer_kept _ _ _ _)
  · exact (read.trans (applyBlock_kept _ _)).trans (answer_kept _ _ _ _)

/-! ## Tables, status and verify (chapters 10 and 11) -/

theorem setTable_kept {t : Table} {p : Part} (h : p.table.wf = true → t.wf = true) : Kept p { p with table := t } :=
  { Kept.refl p with wf := h }

theorem tableWriteRequest_kept (e : IntakeEntry) (p : Part) : Kept p (tableWriteRequest e p) := by
  unfold tableWriteRequest
  dsimp only
  split
  next within => exact Kept.trans (setTable_kept fun h => writeTable_wf _ _ p h within) (answer_kept _ _ _ _)
  next => exact answer_kept _ _ _ _

theorem tableReadRequest_kept (e : IntakeEntry) (p : Part) : Kept p (tableReadRequest e p) := by
  unfold tableReadRequest
  dsimp only
  split
  · exact (readEach_noted _ _ p).kept.trans (answer_kept _ _ _ _)
  · exact answer_kept _ _ _ _

theorem captureBytes_kept (p : Part) : Kept p (captureBytes p).2 := by
  unfold captureBytes
  dsimp only
  split
  · exact drawBytes_kept 4 p
  · exact Kept.refl p
  · exact Kept.refl p

theorem errorReadRequest_kept (e : IntakeEntry) (p : Part) : Kept p (errorReadRequest e p) := by
  refine Kept.trans ?_ (answer_kept _ _ _ _)
  split
  · exact captureBytes_kept p
  · exact (captureBytes_kept p).trans (setTable_kept id)

theorem rejectManagement_kept (e : IntakeEntry) (p : Part) : Kept p (rejectManagement e p) :=
  setFilterUnit_kept (f := fun u => { u with management := { u.management with rejected := some e.hit } })
    (le_refl _) (le_refl _) (le_refl _) (le_refl _)

theorem statusPage_kept {page part : Nat} {p q : Part} {d : List Byte} (h : statusPage page part p = some (d, q)) :
    Kept p q := by
  have drawn : ∀ i, Kept p (slotPage i p).2 := by
    intro i
    unfold slotPage
    dsimp only
    split
    · exact Kept.refl p
    · exact drawBytes_kept 9 p
  unfold statusPage at h
  split at h
  · split at h
    · cases h; exact Kept.refl p
    · obtain ⟨i, _, e⟩ := Option.map_eq_some_iff.mp h
      rw [show q = (slotPage i p).2 by rw [e]]
      exact drawn i
  · split at h
    · cases h; exact Kept.refl p
    · split at h <;> cases h
      exact Kept.refl p
  · split at h <;> cases h
    exact Kept.refl p
  · split at h <;> cases h <;> exact Kept.refl p
  · split at h <;> cases h
    exact Kept.refl p
  · cases h

/-- R166: cleared counts are their own sum, and no queue grows. -/
theorem clearCounters_kept (p : Part) : Kept p (clearCounters p) where
  wf := id
  bounded := id
  mark := id
  ordered := id
  owned := id
  owners := id
  setpoints := id
  clock h := ⟨h, stampUpTo_refl _⟩
  upSums _ := rfl
  downSums _ := rfl

theorem statusReadRequest_kept (e : IntakeEntry) (p : Part) : Kept p (statusReadRequest e p) := by
  unfold statusReadRequest
  dsimp only
  split
  · exact answer_kept _ _ _ _
  · split
    · exact answer_kept _ _ _ _
    next page =>
      refine Kept.trans ?_ (answer_kept _ _ _ _)
      split
      · exact (statusPage_kept page).trans (clearCounters_kept _)
      · exact statusPage_kept page

theorem sweepRead_kept (p : Part) : Kept p (sweepRead p) := by
  have read := fun v => ((readWord_noted .verify (p.verify.sweep.address p.verify.result.showIx) p).kept).trans
    (inert_kept (q := { (readWord .verify (p.verify.sweep.address p.verify.result.showIx) p).2 with verify := v }) rfl)
  have finished : ∀ q, Kept q (finishVerify q) := fun q => Kept.trans (inert_kept rfl) (latchEvent_kept _ _)
  unfold sweepRead
  dsimp only
  split
  · exact (read _).trans (finished _)
  · exact read _

theorem sweepLoop_kept (n : Nat) (p : Part) : Kept p (sweepLoop n p) := by
  induction n generalizing p with
  | zero => exact Kept.refl p
  | succ n ih =>
    unfold sweepLoop
    split
    · exact (sweepRead_kept p).trans (ih _)
    · exact Kept.refl p

theorem verifyShowRequest_kept (e : IntakeEntry) (p : Part) : Kept p (verifyShowRequest e p) := by
  unfold verifyShowRequest
  split
  · exact answer_kept _ _ _ _
  · split
    · exact answer_kept _ _ _ _
    · exact Kept.trans (inert_kept rfl) (answer_kept _ _ _ _)

/-! ## Resets -/

/-- The values after a reset meet every condition but those on the tables and the clock, whatever these are, and
whatever levels the guard inputs had. -/
theorem initial_bounded : queuesBounded Part.initial := by
  refine ⟨?_, ?_, ?_, ?_, ?_, ?_, ?_, ?_, ?_, ?_, ?_⟩ <;> exact Nat.zero_le _
theorem initial_mark : markBounded Part.initial.out := ⟨le_refl _, fun _ => rfl⟩
theorem initial_ordered : strikesOrdered Part.initial := List.Pairwise.nil
theorem initial_owned : strikesOwned Part.initial := fun _ h => by cases h

theorem bellClaim_idle {slots : Bank Slot 3} (h : ∀ i, (slots.read i).busy = false) (b : BellIx) : bellClaim slots b = none := by
  simp [bellClaim, h]
theorem figureClaim_idle {slots : Bank Slot 3} (h : ∀ i, (slots.read i).busy = false) (k : FigIx) : figureClaim slots k = none := by
  simp [figureClaim, h]

theorem initial_owners : ownersAgree Part.initial := by
  have idle : ∀ i, (Part.initial.slots.read i).busy = false := by
    intro i
    simp [Part.initial, Slot.initial, Slot.busy]
  refine ⟨fun b => ?_, fun k => ?_⟩
  · rw [bellClaim_idle idle]; exact Bank.read_const _ _ _
  · rw [figureClaim_idle idle]; exact Bank.read_const _ _ _

theorem initial_setpoints : setpointsInRange Part.initial := by
  intro k
  simp [Part.initial, LiveFigure.initial]

theorem initial_clock : clockSound Part.initial.cal := ⟨by decide, fun _ => rfl⟩

/-- R125, R159: the blocks reset keep the tables and the clock. -/
theorem resetBlocks_kept (p : Part) : Kept p (resetBlocks p) where
  wf := id
  bounded _ := initial_bounded
  mark _ := initial_mark
  ordered _ := initial_ordered
  owned _ := initial_owned
  owners _ := initial_owners
  setpoints _ := initial_setpoints
  clock h := ⟨h, stampUpTo_refl _⟩
  upSums _ := rfl
  downSums _ := rfl

theorem restFigure_kept (k : FigIx) (p : Part) : Kept p (restFigure k p) := by
  unfold restFigure
  dsimp only
  split
  next rec read => exact (readFigure_kept _ _ p).trans (setFigure_kept fun _ => (readFigure_sound read).home)
  next => exact readFigure_kept _ _ p

theorem resume_kept (p : Part) : Kept p (resume p) := by
  unfold resume
  split
  next set => exact catchUp_kept p set
  next => exact Kept.refl p

theorem leaveReset_kept (p : Part) : Kept p (leaveReset p) :=
  (((resetBlocks_kept p).trans (latchEvent_kept _ _)).trans (foldl_kept _ _ _ fun q k => restFigure_kept k q)).trans
    (resume_kept _)

theorem silenceReceivers_kept (p : Part) : Kept p (silenceReceivers p) :=
  (setReceiver_kept _ _ p).trans (setReceiver_kept _ _ _)

theorem cutTransmitters_kept (p : Part) : Kept p (cutTransmitters p) := by
  unfold cutTransmitters
  exact Kept.trans (setPort_kept id) (setPort_kept id)

theorem beginLineBreak_kept (p : Part) : Kept p (beginLineBreak p) := by
  have begun : ∀ q : Part, Kept p q → Kept p (cutTransmitters (silenceReceivers q)) := fun q h =>
    (h.trans (silenceReceivers_kept q)).trans (cutTransmitters_kept _)
  unfold beginLineBreak
  split
  · exact begun _ (inert_kept rfl)
  · exact begun _ (inert_kept rfl)
  · exact Kept.refl p

theorem softResetRequest_kept (e : IntakeEntry) (p : Part) : Kept p (softResetRequest e p) :=
  Kept.trans (inert_kept rfl) (silenceReceivers_kept _)

theorem endLineBreak_kept (p : Part) : Kept p (endLineBreak p) := by
  unfold endLineBreak
  split
  · exact leaveReset_kept p
  · exact Kept.refl p

theorem endSoftReset_kept (p : Part) : Kept p (endSoftReset p) := by
  unfold endSoftReset
  split
  · exact leaveReset_kept p
  · exact Kept.refl p

/-- R126: a power-on reset meets the conditions afresh; it alone forgets the stamp. -/
theorem powerOn_meets (p : Part) : (powerOn p).table.wf = true ∧ queuesBounded (powerOn p) ∧ markBounded (powerOn p).out ∧
    strikesOrdered (powerOn p) ∧ strikesOwned (powerOn p) ∧ ownersAgree (powerOn p) ∧ setpointsInRange (powerOn p) ∧
    clockSound (powerOn p).cal ∧ portSums (powerOn p).up.counts ∧ portSums (powerOn p).down.counts :=
  ⟨rfl, initial_bounded, initial_mark, initial_ordered, initial_owned, initial_owners, initial_setpoints, initial_clock,
    rfl, rfl⟩

/-! ## Every command -/

theorem whenRunning_kept {f : Part → Part} {p : Part} (h : Kept p (f p)) : Kept p (whenRunning f p) := by
  unfold whenRunning
  split
  · exact h
  · exact Kept.refl p

/-- Every command but a power-on reset and a received frame keeps every condition. -/
theorem exec_kept (c : Instr) (s : State) (power : c ≠ .powerOnReset) (received : ∀ w f x, c ≠ .frameReceived w f x) :
    ∃ q, exec c s = .next (s.withPart q) ∧ Kept s.part q := by
  cases c with
  | powerOnReset => exact (power rfl).elim
  | frameReceived w f x => exact (received w f x rfl).elim
  | lineBreakReset => exact ⟨_, rfl, beginLineBreak_kept _⟩
  | lbrEnd => exact ⟨_, rfl, endLineBreak_kept _⟩
  | softResetEnd => exact ⟨_, rfl, endSoftReset_kept _⟩
  | badStopBit w => exact ⟨_, rfl, whenRunning_kept (discardFrame_kept _ _ _)⟩
  | lengthAbove32 w n => exact ⟨_, rfl, whenRunning_kept (overlongFrame_kept _ _ _)⟩
  | runOnCharacter w => exact ⟨_, rfl, whenRunning_kept (runOn_kept _ _)⟩
  | truncation w => exact ⟨_, rfl, whenRunning_kept (discardFrame_kept _ _ _)⟩
  | receiverReady w => exact ⟨_, rfl, whenRunning_kept (becomeReady_kept _ _)⟩
  | downlineBreak => exact ⟨_, rfl, whenRunning_kept (beginBreak_kept _)⟩
  | downlineBreakEnd => exact ⟨_, rfl, whenRunning_kept (endBreak_kept _)⟩
  | downlineTransmitStart => exact ⟨_, rfl, whenRunning_kept (startDownline_kept _)⟩
  | uplineTransmitStart => exact ⟨_, rfl, whenRunning_kept (startUpline_kept _)⟩
  | frameSent w => exact ⟨_, rfl, setPort_kept id⟩
  | spacingEnd w => exact ⟨_, rfl, setPort_kept id⟩
  | clockAdvance => exact ⟨_, rfl, advanceClock_kept _⟩
  | minuteBoundaryEvaluation => exact ⟨_, rfl, whenRunning_kept (passBoundary_kept _)⟩
  | timeFrameTaken => exact ⟨_, rfl, whenRunning_kept (takeTimeFrame_kept _)⟩
  | cueTimerOverflow t => exact ⟨_, rfl, whenRunning_kept (countPastTop_kept _ _)⟩
  | cueTimerCount t => exact ⟨_, rfl, whenRunning_kept (setTimer_kept _ _ _)⟩
  | showEnd i => exact ⟨_, rfl, whenRunning_kept (endShow_kept _ _)⟩
  | pendingExpiry i => exact ⟨_, rfl, whenRunning_kept (expirePending_kept _ _)⟩
  | barrelStepRead i => exact ⟨_, rfl, whenRunning_kept (readDueSteps_kept _ _)⟩
  | strikeRelease => exact ⟨_, rfl, whenRunning_kept (releaseDue_kept _)⟩
  | coolingTick => exact ⟨_, rfl, whenRunning_kept (coolTick_kept _)⟩
  | coilReportTaken => exact ⟨_, rfl, whenRunning_kept (takeCoilReport_kept _)⟩
  | motionPeriod => exact ⟨_, rfl, whenRunning_kept (motionPeriod_kept _)⟩
  | positionReportTaken => exact ⟨_, rfl, whenRunning_kept (takePositionReport_kept _)⟩
  | guardInputSample l => exact ⟨_, rfl, whenRunning_kept (sampleInputs_kept _ _)⟩
  | guardAssertion n => exact ⟨_, rfl, whenRunning_kept (takeAssertion_kept _ _)⟩
  | guardDeassertion n => exact ⟨_, rfl, whenRunning_kept (takeDeassertion_kept _ _)⟩
  | settleEnd n => exact ⟨_, rfl, whenRunning_kept (endSettle_kept _ _)⟩
  | pulseEnd x => exact ⟨_, rfl, whenRunning_kept (endPulse_kept _ _)⟩
  | verifySweep => exact ⟨_, rfl, whenRunning_kept (sweepLoop_kept _ _)⟩
  | tableWrite => exact ⟨_, rfl, whenRunning_kept (onRequest_kept _ tableWriteRequest_kept)⟩
  | tableRead => exact ⟨_, rfl, whenRunning_kept (onRequest_kept _ tableReadRequest_kept)⟩
  | applyConfig => exact ⟨_, rfl, whenRunning_kept (onRequest_kept _ applyConfigRequest_kept)⟩
  | filterWrite => exact ⟨_, rfl, whenRunning_kept (onRequest_kept _ filterWriteRequest_kept)⟩
  | maskWrite => exact ⟨_, rfl, whenRunning_kept (onRequest_kept _ maskWriteRequest_kept)⟩
  | filterRead => exact ⟨_, rfl, whenRunning_kept (onRequest_kept _ filterReadRequest_kept)⟩
  | filterEnable => exact ⟨_, rfl, whenRunning_kept (onRequest_kept _ filterEnableRequest_kept)⟩
  | showStart => exact ⟨_, rfl, whenRunning_kept (onRequest_kept _ showStartRequest_kept)⟩
  | showStop => exact ⟨_, rfl, whenRunning_kept (onRequest_kept _ showStopRequest_kept)⟩
  | showHold => exact ⟨_, rfl, whenRunning_kept (onRequest_kept _ showHoldRequest_kept)⟩
  | showResume => exact ⟨_, rfl, whenRunning_kept (onRequest_kept _ showResumeRequest_kept)⟩
  | verifyShow => exact ⟨_, rfl, whenRunning_kept (onRequest_kept _ verifyShowRequest_kept)⟩
  | figureRelease => exact ⟨_, rfl, whenRunning_kept (onRequest_kept _ figureReleaseRequest_kept)⟩
  | bellService => exact ⟨_, rfl, whenRunning_kept (onRequest_kept _ bellServiceRequest_kept)⟩
  | timerRun => exact ⟨_, rfl, whenRunning_kept (onTimerControl_kept _ fun _ _ q => setTimer_answered_kept _ _ _ _ q)⟩
  | timerStop => exact ⟨_, rfl, whenRunning_kept (onTimerControl_kept _ fun _ _ q => setTimer_answered_kept _ _ _ _ q)⟩
  | timerStep => exact ⟨_, rfl, whenRunning_kept (onTimerControl_kept _ timerStepRequest_kept)⟩
  | timerTransfer => exact ⟨_, rfl, whenRunning_kept (onTimerControl_kept _ fun _ _ q => setTimer_answered_kept _ _ _ _ q)⟩
  | timerSetReload => exact ⟨_, rfl, whenRunning_kept (onTimerControl_kept _ fun _ _ q => setTimer_answered_kept _ _ _ _ q)⟩
  | timerSetBinding => exact ⟨_, rfl, whenRunning_kept (onTimerControl_kept _ timerSetBindingRequest_kept)⟩
  | eventRead => exact ⟨_, rfl, whenRunning_kept (onRequest_kept _ fun _ _ => answer_kept _ _ _ _)⟩
  | eventClear => exact ⟨_, rfl, whenRunning_kept (onRequest_kept _ eventClearRequest_kept)⟩
  | guardRead => exact ⟨_, rfl, whenRunning_kept (onRequest_kept _ guardReadRequest_kept)⟩
  | statusRead => exact ⟨_, rfl, whenRunning_kept (onRequest_kept _ statusReadRequest_kept)⟩
  | errorRead => exact ⟨_, rfl, whenRunning_kept (onRequest_kept _ errorReadRequest_kept)⟩
  | queueFlush => exact ⟨_, rfl, whenRunning_kept (onRequest_kept _ queueFlushRequest_kept)⟩
  | softReset => exact ⟨_, rfl, whenRunning_kept (onRequest_kept _ softResetRequest_kept)⟩
  | unknownRequest => exact ⟨_, rfl, whenRunning_kept (takeManagement_kept _ fun _ _ => answer_kept _ _ _ _)⟩
  | emptyRequest => exact ⟨_, rfl, whenRunning_kept (takeManagement_kept _ fun _ _ => answer_kept _ _ _ _)⟩
  | nonRequestEntryDiscarded => exact ⟨_, rfl, whenRunning_kept (takeManagement_kept _ rejectManagement_kept)⟩

theorem idle_kept (s : State) : Kept s.part (idle s).part := by
  unfold idle
  split
  · exact Kept.refl _
  · dsimp only
    unfold passMillisecond
    split <;> exact inert_kept rfl

/-- A step is one of four: a power-on reset, a received frame, another command, or the part going on by itself. -/
theorem step_cases {s t : State} (h : step s = .next t) :
    (s.pending.head? = some .powerOnReset ∧ t.part = powerOn s.part) ∨
      (∃ w x, t.part = whenRunning (receiveFrame w x) s.part) ∨ Kept s.part t.part := by
  unfold step at h
  split at h
  next c rest pending =>
    by_cases power : c = .powerOnReset
    · subst power
      cases h
      exact .inl ⟨by rw [pending]; rfl, rfl⟩
    · by_cases received : ∃ w f x, c = .frameReceived w f x
      · obtain ⟨w, f, x, rfl⟩ := received
        cases h
        exact .inr (.inl ⟨w, _, rfl⟩)
      · obtain ⟨q, next, kept⟩ := exec_kept c { s with pending := rest } power fun w f x e => received ⟨w, f, x, e⟩
        rw [next] at h
        cases h
        exact .inr (.inr kept)
  next => cases h; exact .inr (.inr (idle_kept s))

/-- So every step but a power-on reset keeps the conditions, the sums of the port counts left out. -/
theorem step_safe {s t : State} (h : step s = .next t) :
    (s.pending.head? = some .powerOnReset ∧ t.part = powerOn s.part) ∨ Safe s.part t.part := by
  rcases step_cases h with power | ⟨w, x, e⟩ | kept
  · exact .inl power
  · rw [e]
    unfold whenRunning
    split
    · exact .inr (receiveFrame_safe w x _)
    · exact .inr (Kept.refl _).toSafe
  · exact .inr kept.toSafe

/-! ## The statements -/

/-- Settles O54. -/
theorem stepsKeepTheTableForm : Obligations.StepsKeepTheTableForm := by
  intro s t wf h
  rcases step_safe h with ⟨-, power⟩ | safe
  · rw [power]; exact (powerOn_meets _).1
  · exact safe.wf wf

/-- Settles O55. -/
theorem stepsKeepTheQueuesBounded : Obligations.StepsKeepTheQueuesBounded := by
  intro s t bounded mark h
  rcases step_safe h with ⟨-, power⟩ | safe
  · rw [power]; exact ⟨initial_bounded, initial_mark⟩
  · exact ⟨safe.bounded bounded, safe.mark mark⟩

/-- Settles O56. -/
theorem stepsKeepTheStrikesInOrder : Obligations.StepsKeepTheStrikesInOrder := by
  intro s t h
  rcases step_safe h with ⟨-, power⟩ | safe
  · rw [power]; exact ⟨fun _ => initial_ordered, fun _ => initial_owned⟩
  · exact ⟨safe.ordered, safe.owned⟩

/-- Settles O57. -/
theorem stepsKeepTheOwnersRight : Obligations.StepsKeepTheOwnersRight := by
  intro s t owners h
  rcases step_safe h with ⟨-, power⟩ | safe
  · rw [power]; exact initial_owners
  · exact safe.owners owners

/-- Settles O59. -/
theorem stampNeverGoesBack : Obligations.StampNeverGoesBack := by
  intro s t sound h
  rcases step_safe h with ⟨front, power⟩ | safe
  · rw [power]; exact ⟨initial_clock, fun other => (other front).elim⟩
  · exact ⟨(safe.clock sound).1, fun _ => (safe.clock sound).2⟩

/-- Settles O60: a received frame is accounted for by `receiveFrame_sums`. -/
theorem receivedFramesAreAccountedFor : Obligations.ReceivedFramesAreAccountedFor := by
  intro s t up down upRoom downRoom h
  rcases step_cases h with ⟨-, power⟩ | ⟨w, x, e⟩ | kept
  · rw [power]; exact ⟨rfl, rfl⟩
  · rw [e]
    unfold whenRunning
    split
    · have sums := receiveFrame_sums w x s.part (fun v => by cases v <;> assumption) (by cases w <;> assumption)
      exact ⟨sums .upline, sums .downline⟩
    · exact ⟨up, down⟩
  · exact ⟨kept.upSums up, kept.downSums down⟩

end Sys2Proof.Machine
end

section
/-! The figures: what the operations of the motion planner leave alone, figure by figure, and what reads of table memory
give, which depends on the words alone. -/

namespace Sys2Proof.Machine

/-! ## What a read gives depends on the words alone -/

section
variable {p q : Part} (h : q.table.words = p.table.words)
include h

theorem readWord_fst_congr (rd rd' : Reader) (a : Nat) : (readWord rd a q).1 = (readWord rd' a p).1 := by
  unfold readWord
  split
  · rfl
  · dsimp only
    rw [h]
    cases (wordAt p.table.words a).judged <;> rfl

theorem readEach_fst_congr (rd rd' : Reader) (as : List Nat) : (readEach rd as q).1 = (readEach rd' as p).1 := by
  induction as generalizing p q with
  | nil => rfl
  | cons a rest ih =>
    simp only [readEach]
    rw [readWord_fst_congr h rd rd' a,
      ih (p := (readWord rd' a p).2) (q := (readWord rd a q).2) (by rw [(readWord_noted rd a q).words, (readWord_noted rd' a p).words, h])]

theorem readRecord_fst_congr (rd rd' : Reader) (base : Nat) (o : List Nat) :
    (readRecord rd base o q).1 = (readRecord rd' base o p).1 := by
  simp only [readRecord, readEach_fst_congr h rd rd']

theorem readBell_fst_congr (b : BellIx) (o : List Nat) : (readBell b o q).1 = (readBell b o p).1 := by
  simp only [readBell, readRecord_fst_congr h .record .record]
  split <;> rfl

theorem readFigure_fst_congr (k : FigIx) (o : List Nat) : (readFigure k o q).1 = (readFigure k o p).1 := by
  simp only [readFigure, readRecord_fst_congr h .record .record]
  split <;> rfl

end

/-- The reads of several words give what each gives by itself. -/
theorem readEach_fst (rd : Reader) (as : List Nat) (p : Part) :
    (readEach rd as p).1 = as.map fun a => (readWord rd a p).1 := by
  induction as with
  | nil => rfl
  | cons a rest ih =>
    simp only [readEach, List.map_cons, ← ih]
    rw [readEach_fst_congr (readWord_noted rd a p).words rd rd rest]

/-! ## What the planner leaves alone -/

/-- As `Carried`, and the strike scheduler, every outbound queue but OQ-REPORT, and every figure outside `S` are as they
were. -/
structure Rested (S : FigIx → Prop) (p q : Part) : Prop extends Carried p q where
  strikes : q.strikes = p.strikes
  out : q.out = { p.out with report := q.out.report }
  others : ∀ j, ¬ S j → q.figures.read j = p.figures.read j

/-- As `Rested`, with OQ-GUARD and OQ-MOTION free. -/
structure Posed (S : FigIx → Prop) (p q : Part) : Prop extends Carried p q where
  strikes : q.strikes = p.strikes
  out : q.out = { p.out with guard := q.out.guard, motion := q.out.motion, report := q.out.report }
  others : ∀ j, ¬ S j → q.figures.read j = p.figures.read j

section
variable {S T : FigIx → Prop} {p q r : Part}

theorem Rested.refl (S : FigIx → Prop) (p : Part) : Rested S p p := ⟨Carried.refl p, rfl, rfl, fun _ _ => rfl⟩
theorem Posed.refl (S : FigIx → Prop) (p : Part) : Posed S p p := ⟨Carried.refl p, rfl, rfl, fun _ _ => rfl⟩

theorem Rested.trans (h : Rested S p q) (k : Rested S q r) : Rested S p r where
  toCarried := h.toCarried.trans k.toCarried
  strikes := k.strikes.trans h.strikes
  out := by rw [k.out, h.out]
  others j hj := (k.others j hj).trans (h.others j hj)

theorem Posed.trans (h : Posed S p q) (k : Posed S q r) : Posed S p r where
  toCarried := h.toCarried.trans k.toCarried
  strikes := k.strikes.trans h.strikes
  out := by rw [k.out, h.out]
  others j hj := (k.others j hj).trans (h.others j hj)

theorem Rested.posed (h : Rested S p q) : Posed S p q where
  toCarried := h.toCarried
  strikes := h.strikes
  out := by rw [h.out]
  others := h.others

theorem Rested.mono (h : Rested S p q) (le : ∀ j, S j → T j) : Rested T p q :=
  { h with others := fun j hj => h.others j fun s => hj (le j s) }
theorem Posed.mono (h : Posed S p q) (le : ∀ j, S j → T j) : Posed T p q :=
  { h with others := fun j hj => h.others j fun s => hj (le j s) }

theorem Noted.rested (h : Noted p q) (S : FigIx → Prop) : Rested S p q :=
  ⟨h.carried, h.strikes, h.out, fun _ _ => by rw [h.figures]⟩

theorem Rested.sameButFigures (h : Rested S p q) : sameButFigures p q :=
  ⟨h.toCarried.grounded.sameGround, h.slots, h.contexts, h.bellOwner, h.figOwner, h.strikes, h.filter, h.cal, h.out⟩

end

theorem foldl_rested {S : FigIx → Prop} {α : Type} (f : Part → α → Part) (as : List α) (p : Part)
    (h : ∀ q a, Rested S q (f q a)) : Rested S p (as.foldl f p) := by
  induction as generalizing p with
  | nil => exact Rested.refl S p
  | cons a rest ih => exact (h p a).trans (ih (f p a))

theorem foldl_posed {S : FigIx → Prop} {α : Type} (f : Part → α → Part) (as : List α) (p : Part)
    (h : ∀ q a, Posed S q (f q a)) : Posed S p (as.foldl f p) := by
  induction as generalizing p with
  | nil => exact Posed.refl S p
  | cons a rest ih => exact (h p a).trans (ih (f p a))

theorem foldl_others {f : Part → FigIx → Part} (h : ∀ q k, Posed (· = k) q (f q k)) {ks : List FigIx} {j : FigIx}
    (hj : j ∉ ks) (p : Part) : Posed (· ≠ j) p (ks.foldl f p) := by
  induction ks generalizing p with
  | nil => exact Posed.refl _ p
  | cons k rest ih =>
    obtain ⟨first, later⟩ := not_or.mp fun e => hj (List.mem_cons.mpr e)
    exact ((h p k).mono fun i e (hi : i = j) => first (hi.symm.trans e)).trans (ih later _)

/-- In a fold that visits each figure once, a figure becomes what its own visit makes of it; before that visit the part
has kept its record and all that `Posed` keeps. -/
theorem foldl_own {f : Part → FigIx → Part} (h : ∀ q k, Posed (· = k) q (f q k)) {ks : List FigIx} (once : ks.Nodup)
    {j : FigIx} (hj : j ∈ ks) (p : Part) :
    ∃ q, Posed (· ≠ j) p q ∧ Posed (· ≠ j) (f q j) (ks.foldl f p) := by
  induction ks generalizing p with
  | nil => cases hj
  | cons k rest ih =>
    obtain ⟨fresh, once⟩ := List.nodup_cons.mp once
    by_cases e : j = k
    · subst e
      exact ⟨p, Posed.refl _ p, foldl_others h fresh _⟩
    · obtain ⟨q, before, after⟩ := ih once ((List.mem_cons.mp hj).resolve_left e) (f p k)
      exact ⟨q, ((h p k).mono fun i e' (hi : i = j) => e (hi.symm.trans e')).trans before, after⟩

theorem allFigures_once : allFigures.Nodup := List.nodup_finRange 16
theorem mem_allFigures (k : FigIx) : k ∈ allFigures := List.mem_finRange k

/-! ## Single records -/

theorem setFigure_rested (k : FigIx) (f : LiveFigure → LiveFigure) (p : Part) : Rested (· = k) p (setFigure k f p) :=
  ⟨setFigure_carried k f p, rfl, rfl, fun _ hj => Bank.read_update_ne _ _ _ _ hj⟩

@[simp] theorem setFigure_own (k : FigIx) (f : LiveFigure → LiveFigure) (p : Part) :
    (setFigure k f p).figures.read k = f (p.figures.read k) := Bank.read_update_self _ _ _

theorem readFigure_rested (k : FigIx) (o : List Nat) (p : Part) : Rested (· = k) p (readFigure k o p).2 := by
  obtain ⟨q, hq, h | ⟨rec, h⟩⟩ := readFigure_frame k o p
  · rw [h]; exact hq.rested _
  · rw [h]; exact (hq.rested _).trans (setFigure_rested _ _ _)

/-- R81: a good read of the figure's record gives it the record's brake address. -/
theorem readFigure_own (k : FigIx) (o : List Nat) (p : Part) :
    (readFigure k o p).2.figures.read k =
      match (readFigure k o p).1 with
      | some rec => (p.figures.read k).braked rec
      | none => p.figures.read k := by
  obtain ⟨q, hq, h | ⟨rec, h⟩⟩ := readFigure_frame k o p
  · rw [h]; dsimp only; rw [hq.figures]
  · rw [h]; dsimp only; rw [setFigure_own, hq.figures]

theorem readFigure_own_some {k : FigIx} {o : List Nat} {p : Part} {rec : FigureRecord} (h : (readFigure k o p).1 = some rec) :
    (readFigure k o p).2.figures.read k = (p.figures.read k).braked rec := by rw [readFigure_own, h]

theorem readFigure_own_none {k : FigIx} {o : List Nat} {p : Part} (h : (readFigure k o p).1 = none) :
    (readFigure k o p).2.figures.read k = p.figures.read k := by rw [readFigure_own, h]

/-- R81: the brake address and nothing else of a figure is set. -/
theorem LiveFigure.braked_eq (g : LiveFigure) (r : FigureRecord) : g.braked r =
    { g with brake := if r.node = 0 then g.brake else some (BitVec.ofNat 8 r.node, BitVec.ofNat 8 r.channel) } := by
  unfold LiveFigure.braked
  split <;> rfl

/-! ## Faults and holds -/

theorem latchEvent_rested (S : FigIx → Prop) (n : Nat) (p : Part) : Rested S p (latchEvent n p) := (latchEvent_noted n p).rested S

theorem removePoses_posed (S : FigIx → Prop) (k : FigIx) (p : Part) : Posed S p (removePoses k p) :=
  ⟨removePoses_carried k p, rfl, rfl, fun _ _ => rfl⟩

theorem appendBrake_posed (S : FigIx → Prop) (d c : Byte) (p : Part) : Posed S p (appendBrake d c p) := by
  refine ⟨appendBrake_carried d c p, ?_, ?_, fun _ _ => ?_⟩ <;> unfold appendBrake <;> split <;> rfl

theorem brakeFigure_posed (S : FigIx → Prop) (k : FigIx) (p : Part) : Posed S p (brakeFigure k p) := by
  unfold brakeFigure
  split <;> exact appendBrake_posed _ _ _ _

theorem faultMoving_posed (k : FigIx) (why : FaultReason) (p : Part) : Posed (· = k) p (faultMoving k why p) :=
  (((removePoses_posed _ k p).trans (brakeFigure_posed _ _ _)).trans (setFigure_rested _ _ _).posed).trans
    (latchEvent_rested _ _ _).posed

theorem faultMoving_own (k : FigIx) (why : FaultReason) (p : Part) :
    (faultMoving k why p).figures.read k = (p.figures.read k).asFaulted why := by
  have braked := ((removePoses_posed (fun _ => False) k p).trans (brakeFigure_posed _ k _)).others k id
  rw [faultMoving, (latchEvent_noted _ _).figures, setFigure_own, braked]

theorem faultFrozen_rested (k : FigIx) (p : Part) : Rested (· = k) p (faultFrozen k p) :=
  (setFigure_rested _ _ p).trans (latchEvent_rested _ _ _)

theorem faultFrozen_own (k : FigIx) (p : Part) : (faultFrozen k p).figures.read k = (p.figures.read k).asFaulted .table := by
  rw [faultFrozen, (latchEvent_noted _ _).figures, setFigure_own]

theorem LiveFigure.moving_iff (g : LiveFigure) : g.moving = true ↔ g.state = .driven ∨ g.state = .homing := by
  simp [LiveFigure.moving]

/-- R96: a figure that a line holds: one that does not yet stand is FROZEN. -/
def LiveFigure.held (g : LiveFigure) (n : LineIx) : LiveFigure :=
  match g.state with
  | .idle | .driven | .homing => { g with hold := setMember g.hold n.val, state := .frozen, lag := false, stall := none }
  | .frozen | .faulted => { g with hold := setMember g.hold n.val }

theorem addHold_posed (k : FigIx) (n : LineIx) (a : Bool) (p : Part) : Posed (· = k) p (addHold k n a p) := by
  have held := (setFigure_rested k (fun g => { g with hold := setMember g.hold n.val }) p).posed
  have stopped : Posed (· = k) p (if a then removePoses k (setFigure k (fun g => { g with hold := setMember g.hold n.val }) p)
      else brakeFigure k (removePoses k (setFigure k (fun g => { g with hold := setMember g.hold n.val }) p))) := by
    split
    · exact held.trans (removePoses_posed _ k _)
    · exact (held.trans (removePoses_posed _ k _)).trans (brakeFigure_posed _ _ _)
  unfold addHold
  dsimp only
  split
  · exact stopped.trans (setFigure_rested _ _ _).posed
  · exact stopped.trans (setFigure_rested _ _ _).posed
  · exact held.trans (setFigure_rested _ _ _).posed
  · exact held
  · exact held

theorem addHold_own (k : FigIx) (n : LineIx) (a : Bool) (p : Part) :
    (addHold k n a p).figures.read k = (p.figures.read k).held n := by
  have stopped : ∀ q : Part, (if a then removePoses k q else brakeFigure k (removePoses k q)).figures.read k = q.figures.read k := by
    intro q
    split
    · rfl
    · exact ((removePoses_posed (fun _ => False) k q).trans (brakeFigure_posed _ k _)).others k id
  unfold addHold LiveFigure.held
  dsimp only
  split <;> rename_i e <;> simp only [e]
  · rw [setFigure_own, stopped, setFigure_own]
  · rw [setFigure_own, stopped, setFigure_own]
  · rw [setFigure_own, setFigure_own]
  · rw [setFigure_own, e]
  · rw [setFigure_own, e]

/-! ## Resynchronisation and release (R97, R98, R106) -/

theorem resync_rested (k : FigIx) (p : Part) : Rested (· = k) p (resync k p) := by
  unfold resync
  dsimp only
  split
  · exact (readFigure_rested _ _ p).trans (faultFrozen_rested _ _)
  · exact (readFigure_rested _ _ p).trans (setFigure_rested _ _ _)

/-- R97: what a resynchronisation makes of a figure whose hold set is empty. -/
theorem resync_own (k : FigIx) (p : Part) (h : (p.figures.read k).hold = 0) :
    (resync k p).figures.read k = resyncedFrom p k (p.figures.read k) := by
  unfold resync resyncedFrom
  dsimp only
  rw [show figureLimitWords = [0, 2] from rfl]
  split
  next lost =>
    rw [faultFrozen_own, readFigure_own_none lost]
    simp only [lost, LiveFigure.asFaulted, h]
  next rec read =>
    rw [setFigure_own, readFigure_own_some read, LiveFigure.braked_eq]
    simp only [read, LiveFigure.resynced, FigureRecord.limit, clampInt, h]

theorem resyncedFrom_congr {p q : Part} (words : q.table.words = p.table.words) (time : q.lineTime = p.lineTime) (k : FigIx)
    (g : LiveFigure) : resyncedFrom q k g = resyncedFrom p k g := by
  simp only [resyncedFrom, readFigure_fst_congr words, time]

/-- A figure's hold set has no say in how its resynchronisation leaves it. -/
theorem resyncedFrom_hold (p : Part) (k : FigIx) (g : LiveFigure) (x : BitVec 8) :
    resyncedFrom p k { g with hold := x } = resyncedFrom p k g := by
  simp only [resyncedFrom]

theorem removeHold_rested (n : LineIx) (k : FigIx) (p : Part) : Rested (· = k) p (removeHold n k p) := by
  unfold removeHold
  dsimp only
  split
  · split
    · exact (setFigure_rested _ _ p).trans (resync_rested _ _)
    · exact setFigure_rested _ _ p
  · exact Rested.refl _ p

theorem releaseFigure_rested (lines : BitVec 8) (k : FigIx) (p : Part) : Rested (· = k) p (releaseFigure lines k p) := by
  have dropped := setFigure_rested k (fun x => { x with hold := x.hold &&& ~~~ lines }) p
  unfold releaseFigure
  dsimp only
  split
  · split
    · exact (dropped.trans (setFigure_rested _ _ _)).trans (resync_rested _ _)
    · exact dropped.trans (setFigure_rested _ _ _)
  · split
    · exact dropped.trans (resync_rested _ _)
    · exact dropped
  · exact dropped
  · exact dropped
  · exact dropped

/-! ## Retargets (R90) -/

theorem driveIdle_rested (k : FigIx) (p : Part) : Rested (· = k) p (driveIdle k p) :=
  (readFigure_rested _ _ p).trans (setFigure_rested _ _ _)

theorem retarget_rested (k : FigIx) (owner : Option SlotIx) (drive : Option Drive) (p : Part) :
    Rested (· = k) p (retarget k owner drive p) := by
  have h := setFigure_rested k (fun g => { g with owner := owner, drive := drive }) p
  unfold retarget
  dsimp only
  split
  · exact h.trans (driveIdle_rested _ _)
  · exact h
  · exact h
  · exact h.trans (setFigure_rested _ _ _)
  · exact h.trans (setFigure_rested _ _ _)
  · exact h
  · exact h
  · exact h

theorem handRetarget_rested (before : Bank (Option SlotIx) 16) (k : FigIx) (p : Part) :
    Rested (· = k) p (handRetarget before k p) := by
  unfold handRetarget
  dsimp only
  split
  · exact Rested.refl _ p
  · exact retarget_rested _ _ _ p

/-! ## The motion period (R82) -/

theorem sendPose_posed (k : FigIx) (rec : FigureRecord) (target : Int) (p : Part) :
    Posed (· = k) p (sendPose k rec target p) := by
  have moved : ∀ (m : List PoseEntry) (g : LiveFigure → LiveFigure),
      Posed (· = k) p (setFigure k g (setOut (fun o => { o with motion := m }) (drawByte p).2)) := fun m g =>
    Posed.trans (q := setOut (fun o => { o with motion := m }) (drawByte p).2)
      ⟨(drawByte_carried p).trans (setOut_carried _ _), rfl, rfl, fun _ _ => rfl⟩ (setFigure_rested _ _ _).posed
  have latched : ∀ (c : Bool) (q : Part), Posed (· = k) p q → Posed (· = k) p (if c then latchEvent Source.figureLag q else q) := by
    intro c q hq
    split
    · exact hq.trans (latchEvent_rested _ _ _).posed
    · exact hq
  unfold sendPose
  dsimp only
  split
  · split
    · exact (latched _ _ (moved _ _)).trans (setFigure_rested _ _ _).posed
    · exact latched _ _ (moved _ _)
  · exact ((setCounts_noted _ p).rested _).posed

theorem visitFigure_posed (k : FigIx) (p : Part) : Posed (· = k) p (visitFigure k p) := by
  have read := (readFigure_rested k (figurePeriodWords (p.figures.read k).takesHome) p).posed
  unfold visitFigure
  dsimp only
  split
  · split
    · exact read.trans (faultMoving_posed _ _ _)
    · split
      · exact read.trans (setFigure_rested _ _ _).posed
      · refine read.trans ?_
        unfold visitFitted
        dsimp only
        split
        · exact faultMoving_posed _ _ _
        · split
          · exact faultMoving_posed _ _ _
          · split
            · exact faultMoving_posed _ _ _
            · unfold visitTarget
              dsimp only
              split
              · exact sendPose_posed _ _ _ _
              · split
                · exact ((drivenTarget_noted _ _ _).rested _).posed.trans (faultMoving_posed _ _ _)
                · exact ((drivenTarget_noted _ _ _).rested _).posed.trans (sendPose_posed _ _ _ _)
  · exact Posed.refl _ p

theorem visitFigure_standing {k : FigIx} {p : Part} (h : (p.figures.read k).moving = false) : visitFigure k p = p := by
  simp [visitFigure, h]

theorem clampFigure_posed (k : FigIx) (p : Part) : Posed (· = k) p (clampFigure k p) := by
  have read := (readFigure_rested k figureLimitWords p).posed
  unfold clampFigure
  dsimp only
  split
  · exact read.trans (setFigure_rested _ _ _).posed
  · split
    · exact read.trans (faultMoving_posed _ _ _)
    · exact read

theorem freezeInZones_posed (n : LineIx) (zones : BitVec 8) (k : FigIx) (p : Part) :
    Posed (· = k) p (freezeInZones n zones k p) := by
  have read := (readFigure_rested k figureZoneWords p).posed
  unfold freezeInZones
  dsimp only
  split
  · exact read.trans (addHold_posed _ _ _ _)
  · split
    · exact read.trans (addHold_posed _ _ _ _)
    · exact read

end Sys2Proof.Machine
end

section
/-! The motion period (R82): how far a visit moves a stored setpoint. -/

namespace Sys2Proof.Machine

/-- R88: the largest distance from stored setpoint `z` to `z'` that one motion period allows. -/
def WithinStep (z z' : Int) : Prop := (z' - z).natAbs ≤ 2000

theorem WithinStep.same {z z' : Int} (h : z' = z) : WithinStep z z' := by simp [WithinStep, h]

/-- R88: a step is at most the record's max step long, and that is at most 2,000. -/
theorem FigureRecord.Sound.withinStep {r : FigureRecord} (h : r.Sound) (z target : Int) :
    WithinStep z (r.stepTowards z target) := by
  have := h.maxStep
  simp only [WithinStep, FigureRecord.stepTowards, clampInt]
  omega

theorem LiveFigure.atRest_setpoint (g : LiveFigure) : g.atRest.setpoint = g.setpoint := rfl

theorem sendPose_setpoint (k : FigIx) (rec : FigureRecord) (target : Int) (p : Part) :
    ((sendPose k rec target p).figures.read k).setpoint =
      if p.out.motion.length < motionCapacity then rec.stepTowards (p.figures.read k).setpoint target
      else (p.figures.read k).setpoint := by
  have latched : ∀ (c : Bool) (q : Part), (if c then latchEvent Source.figureLag q else q).figures = q.figures := by
    intro c q
    split
    · exact (latchEvent_noted _ _).figures
    · rfl
  unfold sendPose
  dsimp only
  by_cases room : p.out.motion.length < motionCapacity
  · simp only [if_pos room]
    split <;> simp only [setFigure_own, LiveFigure.atRest_setpoint, latched]
  · simp only [if_neg room]
    rfl

theorem sendPose_withinStep {rec : FigureRecord} (h : rec.Sound) (k : FigIx) (target : Int) (p : Part) :
    WithinStep (p.figures.read k).setpoint ((sendPose k rec target p).figures.read k).setpoint := by
  rw [sendPose_setpoint]
  split
  · exact h.withinStep _ _
  · exact .same rfl

theorem faultMoving_setpoint (k : FigIx) (why : FaultReason) (p : Part) :
    ((faultMoving k why p).figures.read k).setpoint = (p.figures.read k).setpoint := by rw [faultMoving_own]; rfl

theorem readFigure_setpoint (k : FigIx) (o : List Nat) (p : Part) :
    ((readFigure k o p).2.figures.read k).setpoint = (p.figures.read k).setpoint := by
  rw [readFigure_own]
  split
  · exact LiveFigure.braked_setpoint _ _
  · rfl

theorem visitUnfitted_setpoint (k : FigIx) (p : Part) :
    ((visitUnfitted k p).figures.read k).setpoint = (p.figures.read k).setpoint := by
  rw [visitUnfitted, setFigure_own]
  split <;> rfl

theorem visitTarget_withinStep {rec : FigureRecord} (h : rec.Sound) (k : FigIx) (p : Part) :
    WithinStep (p.figures.read k).setpoint ((visitTarget k rec p).figures.read k).setpoint := by
  have aimed := (drivenTarget_noted (p.figures.read k) rec p).figures
  unfold visitTarget
  dsimp only
  split
  · exact sendPose_withinStep h k _ p
  · split
    · exact .same (by rw [faultMoving_setpoint, aimed])
    next target _ =>
      have moved := sendPose_withinStep h k target (drivenTarget (p.figures.read k) rec p).2
      rwa [aimed] at moved

theorem visitFitted_withinStep {rec : FigureRecord} (h : rec.Sound) (k : FigIx) (p : Part) :
    WithinStep (p.figures.read k).setpoint ((visitFitted k rec p).figures.read k).setpoint := by
  unfold visitFitted
  dsimp only
  split
  · exact .same (faultMoving_setpoint _ _ _)
  · split
    · exact .same (faultMoving_setpoint _ _ _)
    · split
      · exact .same (faultMoving_setpoint _ _ _)
      · exact visitTarget_withinStep h k p

theorem visitFigure_withinStep (k : FigIx) (p : Part) :
    WithinStep (p.figures.read k).setpoint ((visitFigure k p).figures.read k).setpoint := by
  unfold visitFigure
  dsimp only
  split
  · rw [← readFigure_setpoint k (figurePeriodWords (p.figures.read k).takesHome) p]
    split
    · exact .same (faultMoving_setpoint _ _ _)
    · split
      · exact .same (visitUnfitted_setpoint _ _)
      next rec read _ => exact visitFitted_withinStep (readFigure_sound read) k _
  · exact .same rfl

/-! ## The period as a whole -/

theorem motionPeriod_posed (p : Part) : Posed (fun _ => True) p (motionPeriod p) := by
  unfold motionPeriod
  split
  · exact foldl_posed _ _ _ fun q k => (visitFigure_posed k q).mono fun _ _ => trivial
  · exact Posed.refl _ p

/-- In a period at a multiple of 20 ms, a figure becomes what its own visit makes of it. -/
theorem motionPeriod_own {p : Part} (h : p.lineTime % 20 = 0) (k : FigIx) :
    ∃ q, Posed (· ≠ k) p q ∧ Posed (· ≠ k) (visitFigure k q) (motionPeriod p) := by
  rw [motionPeriod, if_pos h]
  exact foldl_own (fun q j => visitFigure_posed j q) allFigures_once (mem_allFigures k) p

theorem motionPeriod_figure (p : Part) (k : FigIx) :
    ((p.figures.read k).moving = false → (motionPeriod p).figures.read k = p.figures.read k) ∧
      WithinStep (p.figures.read k).setpoint ((motionPeriod p).figures.read k).setpoint := by
  by_cases h : p.lineTime % 20 = 0
  · obtain ⟨q, before, after⟩ := motionPeriod_own h k
    have own := before.others k fun h => h rfl
    rw [after.others k fun h => h rfl, ← own]
    exact ⟨fun standing => by rw [visitFigure_standing standing], visitFigure_withinStep k q⟩
  · rw [motionPeriod, if_neg h]
    exact ⟨fun _ => rfl, .same rfl⟩

/-- Settles O33: a step is `step_safe`; of the period each figure's part is `motionPeriod_figure`. -/
theorem motionPeriodMovesNoSetpointTooFar : Obligations.MotionPeriodMovesNoSetpointTooFar := by
  refine ⟨fun s t hs h => ?_, fun s running => ?_⟩
  · rcases step_safe h with ⟨-, power⟩ | safe
    · rw [power]; exact initial_setpoints
    · exact safe.setpoints hs
  have moved : exec .motionPeriod s = .next (s.withPart (motionPeriod s.part)) := run_running motionPeriod s running
  have all := motionPeriod_posed s.part
  refine ⟨fun h => ?_, _, moved, rfl, all.slots, all.bellOwner, all.figOwner, all.guard, all.cal, all.strikes, all.filter,
    all.toCarried.grounded.sameGround, fun k => ⟨fun driven homing => (motionPeriod_figure s.part k).1 ?_,
      (motionPeriod_figure s.part k).2⟩⟩
  · rw [moved, motionPeriod, if_neg h]; rfl
  · simp [LiveFigure.moving, driven, homing]

/-! ## After a reset -/

theorem initial_stopsHold : stopsHold Part.initial := by
  have line : ∀ n, Part.initial.guard.lines.read n = GuardLine.initial := fun n => Bank.read_const _ _ _
  constructor <;> intro n h <;> rw [line] at *
  · cases h
  · rfl

/-- Settles O53. -/
theorem resetMeetsEveryInvariant : Obligations.ResetMeetsEveryInvariant :=
  ⟨rfl, initial_bounded, initial_mark, initial_ordered, initial_owned, initial_owners, initial_stopsHold, initial_clock, rfl,
    rfl, initial_setpoints⟩

end Sys2Proof.Machine
end

section
/-! An ALL-STOP lasts (R105): what keeps a quiet part quiet and its figures held, said once for every operation by
`Steady p q`, and for the commands by `Held p q`. -/

namespace Sys2Proof.Machine

/-- The guard lines are as they were; a quiet part stays quiet, and a line that held every figure still does. -/
structure Steady (p q : Part) : Prop where
  lines : q.guard.lines = p.guard.lines
  quiet : quiet p → quiet q
  holds : ∀ n, Machine.quiet p → holdsEvery n p → holdsEvery n q

/-- An ALL-STOP that holds in `p` holds in `q`. -/
def Held (p q : Part) : Prop := stopsHold p → stopsHold q

theorem Held.refl (p : Part) : Held p p := id
theorem Held.trans {p q r : Part} (h : Held p q) (k : Held q r) : Held p r := k ∘ h

theorem Steady.refl (p : Part) : Steady p p := ⟨rfl, id, fun _ _ => id⟩

theorem Steady.trans {p q r : Part} (h : Steady p q) (k : Steady q r) : Steady p r where
  lines := k.lines.trans h.lines
  quiet := k.quiet ∘ h.quiet
  holds n hq hh := k.holds n (h.quiet hq) (h.holds n hq hh)

theorem Steady.held {p q : Part} (h : Steady p q) : Held p q := by
  rintro ⟨stops, settled⟩
  refine ⟨fun n hn => ?_, fun n hn => ?_⟩ <;> rw [h.lines] at *
  · obtain ⟨hq, hh⟩ := stops n hn
    exact ⟨h.quiet hq, h.holds n hq hh⟩
  · exact settled n hn

theorem foldl_held {α : Type} (f : Part → α → Part) (as : List α) (p : Part) (h : ∀ q a, Held q (f q a)) :
    Held p (as.foldl f p) := by
  induction as generalizing p with
  | nil => exact Held.refl p
  | cons a rest ih => exact (h p a).trans (ih (f p a))

theorem foldl_steady {α : Type} (f : Part → α → Part) (as : List α) (p : Part) (h : ∀ q a, Steady q (f q a)) :
    Steady p (as.foldl f p) := by
  induction as generalizing p with
  | nil => exact Steady.refl p
  | cons a rest ih => exact (h p a).trans (ih (f p a))

/-! ## Reasons to be steady -/

/-- A part in which nothing is changed that an ALL-STOP governs. -/
theorem steady_of_same {p q : Part} (lines : q.guard.lines = p.guard.lines) (slots : q.slots = p.slots)
    (queue : q.strikes.queue = p.strikes.queue) (strike : q.out.strike = p.out.strike)
    (motion : q.out.motion = p.out.motion) (figures : q.figures = p.figures) : Steady p q where
  lines := lines
  quiet := by unfold Machine.quiet; rw [slots, queue, strike, motion]; exact id
  holds n _ := by unfold holdsEvery; rw [figures]; exact id

/-- An operation that finds nothing to do in a quiet part. -/
theorem steady_of_quiet {p q : Part} (lines : q.guard.lines = p.guard.lines) (h : quiet p → q = p) : Steady p q where
  lines := lines
  quiet hq := by rw [h hq]; exact hq
  holds n hq hh := by rw [h hq]; exact hh

theorem Noted.steady {p q : Part} (h : Noted p q) : Steady p q :=
  steady_of_same (by rw [h.guard]) h.slots (by rw [h.strikes]) (by rw [h.out]) (by rw [h.out]) h.figures

theorem allStopAsserted_iff (p : Part) : allStopAsserted p = true ↔ ∃ n, (p.guard.lines.read n).stops = true := by
  simp only [allStopAsserted, List.any_eq_true, Bank.mem_toList]
  constructor
  · rintro ⟨_, ⟨n, rfl⟩, stops⟩
    exact ⟨n, stops⟩
  · rintro ⟨n, stops⟩
    exact ⟨_, ⟨n, rfl⟩, stops⟩

/-- A command that leaves the guard lines alone need only be looked at during an ALL-STOP. -/
theorem held_of_stopped {p q : Part} (lines : q.guard.lines = p.guard.lines)
    (h : allStopAsserted p = true → quiet p → Held p q) : Held p q := by
  intro hp
  by_cases stop : allStopAsserted p = true
  · obtain ⟨n, hn⟩ := (allStopAsserted_iff p).mp stop
    exact h stop (hp.1 n hn).1 hp
  · refine ⟨fun n hn => (stop ((allStopAsserted_iff p).mpr ⟨n, ?_⟩)).elim, fun n hn => ?_⟩ <;> rw [lines] at hn
    · exact hn
    · rw [lines]; exact hp.2 n hn

/-- A part in which no line stops the clock and none settles. -/
theorem stopsHold_of_free {p : Part} (free : ∀ n, (p.guard.lines.read n).stops = false)
    (settled : ∀ n, (p.guard.lines.read n).settle = none) : stopsHold p :=
  ⟨fun n hn => (Bool.noConfusion ((free n).symm.trans hn)), fun n _ => settled n⟩

/-! ## Single records -/

theorem setSlot_steady {i : SlotIx} {f : Slot → Slot} (h : ∀ x, (f x).state = x.state) (p : Part) : Steady p (setSlot i f p) where
  lines := rfl
  quiet := by
    rintro ⟨idle, rest⟩
    refine ⟨fun j => ?_, rest⟩
    rw [setSlot_slots, Bank.read_update]
    split
    · rw [h]; exact idle i
    · exact idle j
  holds _ _ := id

/-- R95, R96: a figure that stands. -/
def LiveFigure.standing (g : LiveFigure) : Prop := g.state = .frozen ∨ g.state = .faulted

theorem LiveFigure.standing.not_moving {g : LiveFigure} (h : g.standing) : g.moving = false := by
  rcases h with h | h <;> simp [LiveFigure.moving, h]

theorem setFigure_steady {k : FigIx} {f : LiveFigure → LiveFigure} {p : Part}
    (h : (p.figures.read k).standing → (f (p.figures.read k)).standing ∧
      ∀ n : LineIx, member (p.figures.read k).hold n.val = true → member (f (p.figures.read k)).hold n.val = true) :
    Steady p (setFigure k f p) where
  lines := rfl
  quiet := id
  holds n _ hh j := by
    rw [setFigure_figures, Bank.read_update]
    split
    · obtain ⟨stands, holds⟩ := h (hh k).2
      exact ⟨holds n (hh k).1, stands⟩
    · exact hh j

theorem readFigure_steady (k : FigIx) (o : List Nat) (p : Part) : Steady p (readFigure k o p).2 := by
  obtain ⟨q, hq, h | ⟨rec, h⟩⟩ := readFigure_frame k o p
  · rw [h]; exact hq.steady
  · rw [h]
    refine hq.steady.trans (setFigure_steady fun stands => ?_)
    rw [LiveFigure.braked_eq]
    exact ⟨stands, fun _ => id⟩

theorem appendBrake_steady (d c : Byte) (p : Part) : Steady p (appendBrake d c p) := by
  unfold appendBrake
  split
  · exact steady_of_same rfl rfl rfl rfl rfl rfl
  · exact steady_of_same rfl rfl rfl rfl rfl rfl

theorem brakeFigure_steady (k : FigIx) (p : Part) : Steady p (brakeFigure k p) := by
  unfold brakeFigure
  split <;> exact appendBrake_steady _ _ _

theorem removePoses_steady (k : FigIx) (p : Part) : Steady p (removePoses k p) where
  lines := rfl
  quiet := fun ⟨idle, queue, strike, motion⟩ => ⟨idle, queue, strike, by simp [removePoses, motion]⟩
  holds _ _ := id

/-! ## Strikes -/

theorem releaseDue_quiet {p : Part} (h : p.strikes.queue = []) : releaseDue p = p := by simp [releaseDue, h, releaseLoop]

theorem releaseDue_steady (p : Part) : Steady p (releaseDue p) :=
  steady_of_quiet (by rw [(releaseDue_carried p).guard]) fun ⟨_, queue, _, _⟩ => releaseDue_quiet queue

theorem removeStrikes_steady (gone : Strike → Bool) (p : Part) : Steady p (removeStrikes gone p) := by
  have removed : Steady p (setQueue (p.strikes.queue.filter fun e => !gone e) p) :=
    ⟨rfl, fun ⟨idle, queue, rest⟩ => ⟨idle, by simp [queue], rest⟩, fun _ _ => id⟩
  unfold removeStrikes
  dsimp only
  split
  · exact removed.trans (releaseDue_steady _)
  · exact removed

/-! ## Figures -/

theorem asFaulted_steady (k : FigIx) (why : FaultReason) (p : Part) : Steady p (setFigure k (·.asFaulted why) p) :=
  setFigure_steady fun _ => ⟨.inr rfl, fun _ => id⟩

theorem faultMoving_steady (k : FigIx) (why : FaultReason) (p : Part) : Steady p (faultMoving k why p) :=
  (((removePoses_steady k p).trans (brakeFigure_steady _ _)).trans (asFaulted_steady _ _ _)).trans (latchEvent_noted _ _).steady

theorem addHold_steady (k : FigIx) (n : LineIx) (a : Bool) (p : Part) : Steady p (addHold k n a p) := by
  have held : Steady p (setFigure k (fun g => { g with hold := setMember g.hold n.val }) p) :=
    setFigure_steady fun stands => ⟨stands, fun m hm => member_setMember_mono _ _ _ hm⟩
  have frozen : ∀ q, Steady q (setFigure k (fun g => { g with state := .frozen, lag := false, stall := none }) q) :=
    fun q => setFigure_steady fun _ => ⟨.inl rfl, fun _ => id⟩
  have stopped : ∀ q, Steady q (if a then removePoses k q else brakeFigure k (removePoses k q)) := by
    intro q
    split
    · exact removePoses_steady k q
    · exact (removePoses_steady k q).trans (brakeFigure_steady _ _)
  unfold addHold
  dsimp only
  split
  · exact (held.trans (stopped _)).trans (frozen _)
  · exact (held.trans (stopped _)).trans (frozen _)
  · exact held.trans (frozen _)
  · exact held
  · exact held

theorem freezeInZones_steady (n : LineIx) (zones : BitVec 8) (k : FigIx) (p : Part) :
    Steady p (freezeInZones n zones k p) := by
  have read := readFigure_steady k figureZoneWords p
  unfold freezeInZones
  dsimp only
  split
  · exact read.trans (addHold_steady _ _ _ _)
  · split
    · exact read.trans (addHold_steady _ _ _ _)
    · exact read

theorem clampFigure_steady (k : FigIx) (p : Part) : Steady p (clampFigure k p) := by
  have read := readFigure_steady k figureLimitWords p
  unfold clampFigure
  dsimp only
  split
  · exact read.trans (setFigure_steady fun stands => ⟨stands, fun _ => id⟩)
  · split
    · exact read.trans (faultMoving_steady _ _ _)
    · exact read

/-- R90: a figure that stands has its owner and its drive changed and nothing else. -/
theorem retarget_standing {k : FigIx} {p : Part} (h : (p.figures.read k).standing) (owner : Option SlotIx)
    (drive : Option Drive) : retarget k owner drive p = setFigure k (fun g => { g with owner := owner, drive := drive }) p := by
  rcases h with h | h <;> simp only [retarget, h]

theorem retarget_steady (k : FigIx) (owner : Option SlotIx) (drive : Option Drive) (p : Part) :
    Steady p (retarget k owner drive p) where
  lines := by rw [(retarget_carried k owner drive p).guard]
  quiet := by
    have h := retarget_rested k owner drive p
    unfold Machine.quiet
    rw [h.slots, h.strikes, h.out]
    exact id
  holds n hq hh := by
    rw [retarget_standing (hh k).2]
    exact (setFigure_steady fun stands => ⟨stands, fun _ => id⟩).holds n hq hh

theorem recompute_steady (p : Part) : Steady p (recompute p) := by
  have handed : ∀ q : Part, Steady q (allFigures.foldl (fun x k => handRetarget p.figOwner k x) q) := by
    intro q
    refine foldl_steady _ _ q fun r k => ?_
    unfold handRetarget
    dsimp only
    split
    · exact Steady.refl r
    · exact retarget_steady _ _ _ r
  have owners : ∀ bells figs, Steady p { p with bellOwner := bells, figOwner := figs } := fun _ _ =>
    steady_of_same rfl rfl rfl rfl rfl rfl
  rw [recompute_eq]
  exact ((owners _ _ : Steady p (reowned p)).trans (removeStrikes_steady _ _)).trans (handed _)

/-! ## The barrel reader and the shows -/

theorem readDueSteps_idle {s : SlotIx} {p : Part} (h : (p.slots.read s).state = .idle) : readDueSteps s p = p := by
  unfold readDueSteps
  generalize (p.slots.read s).reps * ((p.contexts.read s).lastStep + 1) = n
  cases n with
  | zero => rfl
  | succ n => simp [readLoop, stepDue, h]

theorem readDueSteps_steady (s : SlotIx) (p : Part) : Steady p (readDueSteps s p) :=
  steady_of_quiet (by rw [(readDueSteps_grounded s p).guard]) fun ⟨idle, _⟩ => readDueSteps_idle (idle s)

theorem requestStart_held (r : StartRequest) (p : Part) : Held p (requestStart r p) :=
  held_of_stopped (by rw [(requestStart_grounded r p).guard]) fun stop _ => by
    rw [requestStart, if_pos stop]
    exact (loseStart_noted p).steady.held

theorem endShow_steady (i : SlotIx) (p : Part) : Steady p (endShow i p) :=
  steady_of_quiet (by rw [(endShow_grounded i p).guard]) fun ⟨idle, _⟩ => by simp [endShow, endDue, idle i]

theorem expirePending_steady (i : SlotIx) (p : Part) : Steady p (expirePending i p) := by
  unfold expirePending
  split
  · exact (setSlot_steady (f := fun x => { x with waiting := none }) (fun _ => rfl) p).trans (loseStart_noted _).steady
  · exact Steady.refl p

theorem discardPending_steady (p : Part) (i : SlotIx) : Steady p (discardPending p i) := by
  unfold discardPending
  split
  · exact (setSlot_steady (f := fun x => { x with waiting := none }) (fun _ => rfl) p).trans (loseStart_noted _).steady
  · exact Steady.refl p

/-! ## The class effects (R104, R105) -/

theorem LiveFigure.held_holds (g : LiveFigure) (n : LineIx) : member (g.held n).hold n.val = true ∧ (g.held n).standing := by
  unfold LiveFigure.held LiveFigure.standing
  cases g.state <;> simp [member, setMember]

theorem stilled_holds (n : LineIx) (p : Part) : holdsEvery n (stilled n p) := by
  intro k
  obtain ⟨q, before, after⟩ := foldl_own (f := fun x k => addHold k n true x) (fun q j => addHold_posed j n true q)
    allFigures_once (mem_allFigures k) p
  have braked := (appendBrake_posed (fun _ => False) 127 255 (setQueue [] (setOut (fun o => { o with strike := [], motion := [] })
    (allFigures.foldl (fun x k => addHold k n true x) p)))).others k id
  rw [stilled, braked]
  simp only [setQueue_figures, setOut_figures]
  rw [after.others k fun h => h rfl, addHold_own]
  exact LiveFigure.held_holds _ n

theorem appendBrake_emptied (d c : Byte) (p : Part) : (appendBrake d c p).strikes = p.strikes ∧
    (appendBrake d c p).out.strike = p.out.strike ∧ (appendBrake d c p).out.motion = p.out.motion := by
  unfold appendBrake
  split <;> exact ⟨rfl, rfl, rfl⟩

theorem idled_quiet {p : Part} (queue : p.strikes.queue = []) (strike : p.out.strike = []) (motion : p.out.motion = []) :
    quiet (idled p) := ⟨fun i => by simp [idled], queue, strike, motion⟩

theorem idled_holds {n : LineIx} {p : Part} (h : holdsEvery n p) : holdsEvery n (idled p) := h

theorem stilled_emptied (n : LineIx) (p : Part) :
    (stilled n p).strikes.queue = [] ∧ (stilled n p).out.strike = [] ∧ (stilled n p).out.motion = [] := by
  unfold stilled
  generalize allFigures.foldl (fun x k => addHold k n true x) p = q
  obtain ⟨strikes, strike, motion⟩ := appendBrake_emptied 127 255
    (setQueue [] (setOut (fun o => { o with strike := [], motion := [] }) q))
  exact ⟨by rw [strikes]; rfl, by rw [strike]; rfl, by rw [motion]; rfl⟩

theorem stilled_steady (n : LineIx) (p : Part) : Steady p (stilled n p) := by
  have held := foldl_steady (fun x k => addHold k n true x) allFigures p fun q k => addHold_steady k n true q
  have emptied : ∀ q, Steady q (setQueue [] (setOut (fun o => { o with strike := [], motion := [] }) q)) := fun q =>
    ⟨rfl, fun ⟨idle, _, _, _⟩ => ⟨idle, rfl, rfl, rfl⟩, fun _ _ => id⟩
  exact (held.trans (emptied _)).trans (appendBrake_steady _ _ _)

/-- R37: what follows the slots' becoming IDLE. -/
theorem discarded_steady (p : Part) : Steady p (recompute (allSlots.foldl discardPending p)) :=
  (foldl_steady discardPending allSlots p discardPending_steady).trans (recompute_steady _)

theorem stopSlots_stops {p : Part} (queue : p.strikes.queue = []) (strike : p.out.strike = []) (motion : p.out.motion = []) :
    quiet (stopSlots p) ∧ ∀ n, holdsEvery n p → holdsEvery n (stopSlots p) := by
  have still := idled_quiet queue strike motion
  have holds := fun n => idled_holds (n := n) (p := p)
  rw [stopSlots_eq]
  generalize idled p = q at *
  exact ⟨(discarded_steady q).quiet still, fun n hh => (discarded_steady q).holds n still (holds n hh)⟩

/-- R105: an ALL-STOP leaves the part quiet and every figure held by its line. -/
theorem allStop_stops (n : LineIx) (p : Part) : quiet (allStop n p) ∧ holdsEvery n (allStop n p) := by
  obtain ⟨queue, strike, motion⟩ := stilled_emptied n p
  obtain ⟨still, holds⟩ := stopSlots_stops queue strike motion
  rw [allStop_eq]
  exact ⟨still, holds n (stilled_holds n p)⟩

theorem allStop_steady (n : LineIx) (p : Part) : Steady p (allStop n p) where
  lines := by rw [(allStop_grounded n p).guard]
  quiet _ := (allStop_stops n p).1
  holds m hq hh := by
    obtain ⟨queue, strike, motion⟩ := stilled_emptied n p
    rw [allStop_eq]
    exact (stopSlots_stops queue strike motion).2 m ((stilled_steady n p).holds m hq hh)

theorem classEffect_steady (n : LineIx) (p : Part) : Steady p (classEffect n p) := by
  unfold classEffect
  dsimp only
  split
  · exact Steady.refl p
  · exact foldl_steady _ _ _ fun q k => freezeInZones_steady n _ k q
  · exact allStop_steady n p

theorem classEffect_stops {n : LineIx} {p : Part} (h : (p.guard.lines.read n).config.cls = .allStop) :
    quiet (classEffect n p) ∧ holdsEvery n (classEffect n p) := by
  simp only [classEffect, h]
  exact allStop_stops n p

end Sys2Proof.Machine
end

section
/-! An ALL-STOP lasts (R105): every command keeps it. -/

namespace Sys2Proof.Machine

/-! ## Commands that touch nothing an ALL-STOP governs -/

theorem held_of_same {p q : Part} (lines : q.guard.lines = p.guard.lines) (slots : q.slots = p.slots)
    (queue : q.strikes.queue = p.strikes.queue) (strike : q.out.strike = p.out.strike)
    (motion : q.out.motion = p.out.motion) (figures : q.figures = p.figures) : Held p q :=
  (steady_of_same lines slots queue strike motion figures).held

theorem latchEvent_held (k : Nat) (p : Part) : Held p (latchEvent k p) := (latchEvent_noted k p).steady.held
theorem setCounts_held (f : Counts → Counts) (p : Part) : Held p (setCounts f p) := (setCounts_noted f p).steady.held
theorem answer_held (e : IntakeEntry) (r : Result) (d : List Byte) (p : Part) : Held p (answer e r d p) :=
  (answer_noted e r d p).steady.held
theorem setBell_held (b : BellIx) (f : BellState → BellState) (p : Part) : Held p (setBell b f p) :=
  held_of_same rfl rfl rfl rfl rfl rfl
theorem setFilterUnit_held (f : FilterUnit → FilterUnit) (p : Part) : Held p (setFilterUnit f p) :=
  held_of_same rfl rfl rfl rfl rfl rfl
theorem setCal_held (f : CalendarUnit → CalendarUnit) (p : Part) : Held p (setCal f p) := held_of_same rfl rfl rfl rfl rfl rfl
theorem setTimer_held (t : TimerIx) (f : CueTimer → CueTimer) (p : Part) : Held p (setTimer t f p) :=
  held_of_same rfl rfl rfl rfl rfl rfl
theorem setPort_held (w : Port) (f : LinePort → LinePort) (p : Part) : Held p (setPort w f p) := by
  cases w <;> exact held_of_same rfl rfl rfl rfl rfl rfl
theorem setReceiver_held (w : Port) (f : Receiver → Receiver) (p : Part) : Held p (setReceiver w f p) := setPort_held w _ p
theorem setPortCounts_held (w : Port) (f : PortCounts → PortCounts) (p : Part) : Held p (setPortCounts w f p) :=
  setPort_held w _ p
theorem countCheckError_held (w : Port) (p : Part) : Held p (countCheckError w p) := setPortCounts_held w _ p
theorem setManagement_held (rest : List IntakeEntry) (p : Part) : Held p (setManagement rest p) :=
  held_of_same rfl rfl rfl rfl rfl rfl
theorem drawBytes_steady (n : Nat) (p : Part) : Steady p (drawBytes n p).2 := by
  induction n generalizing p with
  | zero => exact Steady.refl p
  | succ n ih => exact (steady_of_same rfl rfl rfl rfl rfl rfl : Steady p (drawByte p).2).trans (ih _)

/-! ## Requests -/

theorem takeManagement_held {takes : Frame → Bool} {body : IntakeEntry → Part → Part} (p : Part)
    (h : ∀ e q, Held q (body e q)) : Held p (takeManagement takes body p) := by
  unfold takeManagement
  split
  · exact Held.refl p
  · split
    · exact (setManagement_held _ p).trans (h _ _)
    · exact Held.refl p

theorem onRequest_held {r : Request} {body : IntakeEntry → Part → Part} (p : Part) (h : ∀ e q, Held q (body e q)) :
    Held p (onRequest r body p) := by
  refine takeManagement_held p fun e q => ?_
  split
  · exact h e q
  · exact answer_held _ _ _ q

theorem answerTimer_held (e : IntakeEntry) (t : TimerIx) (r : Result) (p : Part) : Held p (answerTimer e t r p) := by
  have data : Held p (timerData t p).2 := by
    unfold timerData
    dsimp only
    split
    · exact Held.refl p
    · exact (drawBytes_steady 1 p).held
  exact data.trans (answer_held _ _ _ _)

theorem onTimerControl_held {a : Nat} {body : IntakeEntry → TimerIx → Part → Part} (p : Part)
    (h : ∀ e t q, Held q (body e t q)) : Held p (onTimerControl a body p) := by
  refine takeManagement_held p fun e q => ?_
  split
  · split
    · exact answer_held _ _ _ q
    · split
      · exact h _ _ q
      · exact answerTimer_held _ _ _ q
  · exact answer_held _ _ _ q

/-! ## The line (chapters 07 and 08) -/

theorem discardFrame_held (w : Port) (x : RxState) (p : Part) : Held p (discardFrame w x p) := by
  unfold discardFrame
  split
  · exact (countCheckError_held w p).trans (setReceiver_held w _ _)
  · exact Held.refl p

theorem overlongFrame_held (w : Port) (n : Byte) (p : Part) : Held p (overlongFrame w n p) := by
  unfold overlongFrame
  split
  · exact discardFrame_held _ _ _
  · exact Held.refl p

theorem runOn_held (w : Port) (p : Part) : Held p (runOn w p) := by
  unfold runOn
  dsimp only
  split
  · exact (countCheckError_held w p).trans (setReceiver_held w _ _)
  · exact Held.refl p

theorem becomeReady_held (w : Port) (p : Part) : Held p (becomeReady w p) := by
  unfold becomeReady
  dsimp only
  split
  · exact setReceiver_held w _ p
  · exact Held.refl p

theorem beginBreak_held (p : Part) : Held p (beginBreak p) := by
  unfold beginBreak
  split
  · exact Held.refl p
  · exact (setReceiver_held .downline _ p).trans (latchEvent_held _ _)

theorem endBreak_held (p : Part) : Held p (endBreak p) := by
  unfold endBreak
  split
  · exact setReceiver_held .downline _ p
  · exact Held.refl p

theorem deliver_held (i : FilterIx) (f : Frame) (p : Part) : Held p (deliver i f p) := by
  have appended := (appendReport_noted (quietFrame f p) p).steady.held
  have marked : ∀ (n : Outbound → Nat) (q : Part), Held q (setOut (fun o => { o with mark := n o }) q) := fun _ _ =>
    held_of_same rfl rfl rfl rfl rfl rfl
  unfold deliver
  split
  · exact Held.refl p
  · unfold answerPoll
    split
    · exact appended
    · split
      · exact appended.trans (marked (fun _ => 1) _)
      · exact marked (fun o => o.report.length) p
  · exact setFilterUnit_held _ p

theorem overflowIntake_held (i : FilterIx) (p : Part) : Held p (overflowIntake i p) :=
  (setFilterUnit_held _ p).trans (latchEvent_held _ _)

theorem forwardFrame_held (w : Port) (x : WireFrame) (p : Part) : Held p (forwardFrame w x p) := by
  have passed : Held p (setOut (·.appendPass w x) p) := by cases w <;> exact held_of_same rfl rfl rfl rfl rfl rfl
  unfold forwardFrame
  split
  · exact passed.trans (setPortCounts_held w _ _)
  · exact ((setCounts_held _ p).trans (latchEvent_held _ _)).trans (setPortCounts_held w _ _)

theorem matchFrame_held (w : Port) (x : WireFrame) (p : Part) : Held p (matchFrame w x p) := by
  unfold matchFrame
  split
  · dsimp only
    split
    · exact (deliver_held _ _ p).trans (forwardFrame_held _ _ _)
    · exact (deliver_held _ _ p).trans (setPortCounts_held w _ _)
  · split
    · exact forwardFrame_held _ _ _
    · dsimp only
      split
      · exact (overflowIntake_held _ p).trans (forwardFrame_held _ _ _)
      · exact (overflowIntake_held _ p).trans (setPortCounts_held w _ _)

theorem receiveFrame_held (w : Port) (x : WireFrame) (p : Part) : Held p (receiveFrame w x p) := by
  unfold receiveFrame
  split
  · dsimp only
    split
    · exact ((setReceiver_held w _ p).trans (setPortCounts_held w _ _)).trans (matchFrame_held _ _ _)
    · exact (setReceiver_held w _ p).trans (countCheckError_held w _)
  · exact Held.refl p

/-! ## Transmitters (chapter 09) -/

theorem completeStrike_carried (e : StrikeFrame) (p : Part) : Carried p (completeStrike e p).2 := by
  have read := readBell_carried e.bell bellCompletionWords p
  have sent : ∀ (rec : BellRecord) (n : Nat) (q : Part), Carried q (sendStrike e rec n q).2 :=
    fun rec n q => (drawByte_carried q).trans (setBell_carried _ _ _)
  unfold completeStrike
  dsimp only
  split
  · exact read
  · split
    · exact (read.trans (setCounts_carried _ _)).trans (latchEvent_carried _ _)
    · split
      · exact read.trans (setCounts_carried (fun c => { c with noBell := bump c.noBell }) _)
      · refine read.trans ?_
        unfold chargeStrike
        dsimp only
        split
        · exact sent _ _ _
        · split
          · exact (setCounts_carried _ _).trans (sent _ _ _)
          · exact (setCounts_carried _ _).trans (latchEvent_carried _ _)

theorem startHammer_guard (e : StrikeFrame) (rest : List StrikeFrame) (p : Part) : (startHammer e rest p).2.guard = p.guard := by
  have done := (completeStrike_carried e (setOut (fun o => { o with strike := rest }) p)).guard
  unfold startHammer
  dsimp only
  split <;> rw [(releaseDue_carried _).guard] <;> exact done

/-- In a quiet part no strike and no setpoint waits to be sent. -/
theorem chooseOnce_steady (p : Part) : Steady p (chooseOnce p).2 := by
  unfold chooseOnce
  split
  · exact Steady.refl p
  · split
    · exact Steady.refl p
    · exact steady_of_same rfl rfl rfl rfl rfl rfl
  · split
    · exact Steady.refl p
    next waiting =>
      exact steady_of_quiet (by rw [startHammer_guard]) fun ⟨_, _, strike, _⟩ => by rw [strike] at waiting; cases waiting
  · split
    · exact Steady.refl p
    next waiting => exact steady_of_quiet rfl fun ⟨_, _, _, motion⟩ => by rw [motion] at waiting; cases waiting
  · split
    · exact Steady.refl p
    · exact steady_of_same rfl rfl rfl rfl rfl rfl

theorem chooseLoop_steady (n : Nat) (p : Part) : Steady p (chooseLoop n p) := by
  induction n generalizing p with
  | zero => exact Steady.refl p
  | succ n ih =>
    unfold chooseLoop
    dsimp only
    split
    · exact (chooseOnce_steady p).trans (ih _)
    · exact chooseOnce_steady p

theorem startDownline_held (p : Part) : Held p (startDownline p) := by
  unfold startDownline
  split
  · exact (chooseLoop_steady _ p).held
  · exact Held.refl p

theorem startUpline_held (p : Part) : Held p (startUpline p) := by
  unfold startUpline
  split
  · split
    · exact Held.refl p
    · split
      · exact Held.refl p
      · exact held_of_same rfl rfl rfl rfl rfl rfl
    · split
      · exact Held.refl p
      · exact held_of_same rfl rfl rfl rfl rfl rfl
  · exact Held.refl p

theorem flush_steady (name : QueueName) (p : Part) : Steady p (setOut (·.flush name) p) := by
  refine ⟨rfl, fun ⟨idle, queue, strike, motion⟩ => ⟨idle, queue, ?_, ?_⟩, fun _ _ => id⟩ <;>
    cases name <;> simp [Outbound.flush, strike, motion]

theorem queueFlushRequest_held (e : IntakeEntry) (p : Part) : Held p (queueFlushRequest e p) := by
  unfold queueFlushRequest
  split
  · exact answer_held _ _ _ _
  · split
    · exact answer_held _ _ _ _
    · dsimp only
      split
      · exact ((flush_steady _ p).trans (releaseDue_steady _)).held.trans (answer_held _ _ _ _)
      · exact (flush_steady _ p).held.trans (answer_held _ _ _ _)

/-! ## Clock, calendar and timers (chapter 01) -/

theorem handWinner_held (w : Option CalendarEntry) (b : DateTime) (p : Part) : Held p (handWinner w b p) := by
  unfold handWinner
  split
  · exact Held.refl p
  · exact requestStart_held _ _

theorem passBoundary_held (p : Part) : Held p (passBoundary p) := by
  unfold passBoundary
  split
  · refine Held.trans ?_ (setCal_held _ _)
    exact (readCalendar_noted _ p).steady.held.trans (foldl_held _ _ _ fun _ _ => handWinner_held _ _ _)
  · exact Held.refl p

theorem catchUpSlot_held (bs : List DateTime) (p : Part) (i : SlotIx) : Held p (catchUpSlot bs p i) := by
  have searched := (searchSlot_noted i bs p).steady.held
  unfold catchUpSlot
  dsimp only
  split
  · exact searched
  · exact searched.trans (handWinner_held _ _ _)

theorem catchUp_held (p : Part) : Held p (catchUp p) := by
  unfold catchUp
  dsimp only
  exact (foldl_held _ _ _ (catchUpSlot_held _)).trans (setCal_held _ _)

theorem stepClock_held (t : DateTime) (d : Int) (p : Part) : Held p (stepClock t d p) := by
  have stepped := (setCal_held (fun c => { c with clock := t, slew := 0 }) p).trans (latchEvent_held Source.clockStepped _)
  unfold stepClock
  dsimp only
  split
  · exact stepped.trans (catchUp_held _)
  · exact stepped

theorem useTime_held (t : DateTime) (p : Part) : Held p (useTime t p) := by
  unfold useTime
  split
  · exact (setCal_held (fun c => { c with clock := t, clockState := .set, slew := 0, stamp := some t.floorMinute }) p).trans
      (latchEvent_held _ _)
  · dsimp only
    split
    · exact setCal_held _ p
    · exact stepClock_held t _ p

theorem takeTimeFrame_held (p : Part) : Held p (takeTimeFrame p) := by
  have intake : ∀ (f : IntakeQueue → IntakeQueue) (q : Part), Held q (setCalendarIntake f q) := fun _ _ =>
    held_of_same rfl rfl rfl rfl rfl rfl
  have reject : ∀ q, Held q (rejectTime q) := fun q => setCal_held _ q
  unfold takeTimeFrame
  split
  · exact Held.refl p
  · dsimp only
    split
    · exact ((intake _ p).trans (intake _ _)).trans (reject _)
    · split
      · exact (intake _ p).trans (useTime_held _ _)
      · exact (intake _ p).trans (reject _)

theorem overflowTimer_held (t : TimerIx) (p : Part) : Held p (overflowTimer t p) := by
  have past := (setTimer_held t (fun x => { x with count := x.reload }) p).trans (latchEvent_held (Source.timer t) _)
  unfold overflowTimer
  dsimp only
  split
  · exact past.trans (setTimer_held _ _ _)
  · exact (past.trans (requestStart_held _ _)).trans (setTimer_held _ _ _)

theorem countPastTop_held (t : TimerIx) (p : Part) : Held p (countPastTop t p) := by
  unfold countPastTop
  dsimp only
  split
  · exact overflowTimer_held t p
  · exact Held.refl p

theorem setTimer_answered_held (e : IntakeEntry) (t : TimerIx) (r : Result) (f : CueTimer → CueTimer) (p : Part) :
    Held p (answerTimer e t r (setTimer t f p)) := (setTimer_held _ _ p).trans (answerTimer_held _ _ _ _)

theorem timerStepRequest_held (e : IntakeEntry) (t : TimerIx) (p : Part) : Held p (timerStepRequest e t p) := by
  unfold timerStepRequest
  dsimp only
  split
  · exact answerTimer_held _ _ _ _
  · split
    · exact (overflowTimer_held t p).trans (answerTimer_held _ _ _ _)
    · exact setTimer_answered_held _ _ _ _ p

theorem timerSetBindingRequest_held (e : IntakeEntry) (t : TimerIx) (p : Part) : Held p (timerSetBindingRequest e t p) := by
  unfold timerSetBindingRequest
  split
  · exact setTimer_answered_held _ _ _ _ p
  · split
    · exact setTimer_answered_held _ _ _ _ p
    · exact answerTimer_held _ _ _ _

/-! ## Bells (chapter 04) -/

theorem withdrawBell_held (b : BellIx) (p : Part) : Held p (withdrawBell b p) := (removeStrikes_steady _ p).held

theorem bellFaulted_held (b : BellIx) (p : Part) : Held p (bellFaulted b p) :=
  ((setBell_held _ _ p).trans (withdrawBell_held _ _)).trans (latchEvent_held _ _)

theorem coilReport_held (e : IntakeEntry) (status : CoilStatus) (p : Part) : Held p (coilReport e status p) := by
  have scanned := (scanBells_noted e.frame.source.toNat (e.frame.arg 0) (status = .hot) allBells p).steady.held
  unfold coilReport
  dsimp only
  split
  · exact scanned.trans (setCounts_held _ _)
  · split
    · exact scanned
    · exact scanned.trans (bellFaulted_held _ _)
    · exact scanned.trans (bellFaulted_held _ _)
    · exact scanned.trans (setBell_held _ _ _)

theorem takeCoilReport_held (p : Part) : Held p (takeCoilReport p) := by
  have intake : ∀ (f : IntakeQueue → IntakeQueue) (q : Part), Held q (setBellsIntake f q) := fun _ _ =>
    held_of_same rfl rfl rfl rfl rfl rfl
  unfold takeCoilReport
  split
  · exact Held.refl p
  · dsimp only
    split
    · exact ((intake _ p).trans (intake _ _)).trans (setCounts_held _ _)
    · split
      · exact (intake _ p).trans (setCounts_held _ _)
      · exact (intake _ p).trans (coilReport_held _ _ _)

theorem coolTick_held (p : Part) : Held p (coolTick p) := by
  unfold coolTick
  split
  · refine foldl_held _ _ _ fun q b => ?_
    have read := (readBell_noted b bellCoolingWords q).steady.held
    unfold coolBell
    dsimp only
    split
    · exact Held.refl q
    · split
      · exact read
      · exact read.trans (setBell_held _ _ _)
  · exact Held.refl p

theorem bellServiceRequest_held (e : IntakeEntry) (p : Part) : Held p (bellServiceRequest e p) := by
  unfold bellServiceRequest
  split
  · exact (setBell_held _ _ p).trans (answer_held _ _ _ _)
  · exact ((setBell_held _ _ p).trans (withdrawBell_held _ _)).trans (answer_held _ _ _ _)
  · exact answer_held _ _ _ _

/-! ## Figures (chapter 05) -/

theorem setFigure_setFigure (k : FigIx) (f g : LiveFigure → LiveFigure) (p : Part) :
    setFigure k g (setFigure k f p) = setFigure k (fun x => g (f x)) p := by
  have : (p.figures.update k f).update k g = p.figures.update k fun x => g (f x) := by
    refine Bank.ext_read _ _ fun j => ?_
    by_cases h : j = k
    · subst h; simp only [Bank.read_update_self]
    · simp only [Bank.read_update_ne _ _ _ _ h]
  simp only [setFigure, this]


theorem motionPeriod_held (p : Part) : Held p (motionPeriod p) := by
  refine held_of_stopped (by rw [(motionPeriod_carried p).guard]) fun stop _ hp => ?_
  obtain ⟨n, hn⟩ := (allStopAsserted_iff p).mp stop
  obtain ⟨-, hold⟩ := hp.1 n hn
  have still : ∀ k, (p.figures.read k).moving = false := fun k => LiveFigure.standing.not_moving (hold k).2
  have same : ∀ ks : List FigIx, ks.foldl (fun q k => visitFigure k q) p = p := by
    intro ks
    induction ks with
    | nil => rfl
    | cons k rest ih => rw [List.foldl_cons, visitFigure_standing (still k), ih]
  rw [motionPeriod, same]
  split <;> exact hp

theorem scanFigures_steady (node channel : Nat) (ks : List FigIx) (p : Part) : Steady p (scanFigures node channel ks p).2 := by
  induction ks generalizing p with
  | nil => exact Steady.refl p
  | cons k rest ih =>
    unfold scanFigures
    dsimp only
    split
    · exact (readFigure_steady _ _ _).trans (ih _)
    · split <;> exact (readFigure_steady _ _ _).trans (ih _)

theorem reportFigure_steady (k : FigIx) (z : Int) (stamp : Nat) (endStop : Bool) (p : Part) :
    Steady p (reportFigure k z stamp endStop p) := by
  have stored : Steady p (setFigure k (fun g => { g with reported := some z, reportStamp := some stamp }) p) :=
    setFigure_steady fun stands => ⟨stands, fun _ => id⟩
  have heard : ∀ q, Steady q (setFigure k (fun g => { g with silence := some stamp }) q) := fun q =>
    setFigure_steady fun stands => ⟨stands, fun _ => id⟩
  have compared : ∀ (rec : FigureRecord) q, Steady q (setFigure k (·.compared rec z stamp) q) := fun rec q =>
    setFigure_steady fun stands => ⟨stands, fun _ => id⟩
  unfold reportFigure
  dsimp only
  split
  · refine stored.trans ?_
    unfold reportMoving
    dsimp only
    split
    · exact (heard _).trans (faultMoving_steady _ _ _)
    · refine (heard _).trans ((readFigure_steady k figureStallWords _).trans ?_)
      split
      · exact Steady.refl _
      · unfold testStall
        dsimp only
        split
        · exact (compared _ _).trans (faultMoving_steady _ _ _)
        · exact compared _ _
  · exact stored

theorem takePositionReport_held (p : Part) : Held p (takePositionReport p) := by
  have intake : ∀ (f : IntakeQueue → IntakeQueue) (q : Part), Held q (setFiguresIntake f q) := fun _ _ =>
    held_of_same rfl rfl rfl rfl rfl rfl
  unfold takePositionReport
  split
  · exact Held.refl p
  · dsimp only
    split
    · exact ((intake _ p).trans (intake _ _)).trans (setCounts_held _ _)
    · split
      · exact ((intake _ p).trans (scanFigures_steady _ _ _ _).held).trans (setCounts_held _ _)
      · exact ((intake _ p).trans (scanFigures_steady _ _ _ _).held).trans (reportFigure_steady _ _ _ _ _).held

/-! ## Releases and settles: a line that is not asserted leaves hold sets (R98, R106) -/

/-- A line that a resynchronisation must leave in a hold set keeps the figure from it. -/
theorem member_ne_zero {s : BitVec 8} {n : Nat} (h : member s n = true) : s ≠ 0 := by
  rintro rfl
  simp [member] at h

/-- Figure `k` loses `lines` from its hold set, none of which stops the clock. -/
theorem releaseFigure_held {lines : BitVec 8} {p : Part} (h : ∀ n, (p.guard.lines.read n).stops = true → member lines n.val = false)
    (k : FigIx) : Held p (releaseFigure lines k p) := by
  refine held_of_stopped (by rw [(releaseFigure_carried lines k p).guard]) fun stop still hp => ?_
  obtain ⟨n, hn⟩ := (allStopAsserted_iff p).mp stop
  have stays : ∀ m, (p.guard.lines.read m).stops = true → member ((p.figures.read k).hold &&& ~~~ lines) m.val = true := by
    intro m hm
    have held := ((hp.1 m hm).2 k).1
    have out := h m hm
    simp only [member, BitVec.getLsbD_and, BitVec.getLsbD_not] at *
    simpa [held] using out
  have kept : ((p.figures.read k).hold &&& ~~~ lines = 0) = False := eq_false (member_ne_zero (stays n hn))
  have stopped : ∀ f : LiveFigure → LiveFigure, (f (p.figures.read k)).hold = (p.figures.read k).hold &&& ~~~ lines →
      (f (p.figures.read k)).standing → stopsHold (setFigure k f p) := by
    intro f hold stands
    refine ⟨fun m hm => ⟨(hp.1 m hm).1, fun j => ?_⟩, hp.2⟩
    rw [setFigure_figures, Bank.read_update]
    split
    · exact ⟨by rw [hold]; exact stays m hm, stands⟩
    · exact (hp.1 m hm).2 j
  have merged : ∀ (f g : LiveFigure → LiveFigure), setFigure k g (setFigure k f p) = setFigure k (fun x => g (f x)) p :=
    fun f g => setFigure_setFigure k f g p
  have stands : (p.figures.read k).standing := ((hp.1 n hn).2 k).2
  unfold releaseFigure
  dsimp only
  simp only [kept]
  rcases stands with e | e <;> simp only [e]
  · exact stopped (fun x => { x with hold := x.hold &&& ~~~ lines }) rfl (.inl e)
  · simp only [merged]
    exact stopped (fun x => { x with hold := x.hold &&& ~~~ lines, fault := .none, state := .frozen }) rfl (.inl rfl)

end Sys2Proof.Machine
end

section
/-! An ALL-STOP lasts (R105): the guard lines, APPLY CONFIG, the resets and the statement. -/

namespace Sys2Proof.Machine

/-! ## Releases and settles (R98, R106) -/

theorem foldl_setMember {α : Type} (c : α → Bool) (f : α → Nat) (as : List α) (s : BitVec 8) (k : Nat)
    (h : ∀ a ∈ as, c a = true → f a ≠ k) :
    member (as.foldl (fun s a => if c a then setMember s (f a) else s) s) k = member s k := by
  induction as generalizing s with
  | nil => rfl
  | cons a rest ih =>
    rw [List.foldl_cons, ih _ fun b hb => h b (List.mem_cons_of_mem _ hb)]
    split
    next ca =>
      have ne : f a ≠ k := h a List.mem_cons_self ca
      simp [member, setMember, BitVec.getLsbD_twoPow, ne]
    next => rfl

/-- R98: no line that stops the clock is taken out of hold sets by a release. -/
theorem releasable_asserted {p : Part} {n : LineIx} (h : (p.guard.lines.read n).asserted = true) :
    member (releasable p) n.val = false := by
  refine (foldl_setMember (fun m => !(p.guard.lines.read m).config.autoResume && !(p.guard.lines.read m).asserted)
    (fun m => m.val) allLines 0 n.val fun m _ free same => ?_).trans (by simp [member])
  obtain rfl := Fin.ext same
  simp [h] at free

theorem GuardLine.asserted_of_stops {l : GuardLine} (h : l.stops = true) : l.asserted = true := (Bool.and_eq_true_iff.mp h).1
theorem GuardLine.cls_of_stops {l : GuardLine} (h : l.stops = true) : l.config.cls = .allStop :=
  eq_of_beq (Bool.and_eq_true_iff.mp h).2

/-- An ALL-STOP lasts through a fold of operations that leave the guard lines alone and each keep it while the lines are
those of the beginning. -/
theorem foldl_held_lines {α : Type} (f : Part → α → Part) (as : List α) (p : Part)
    (lines : ∀ q a, (f q a).guard.lines = q.guard.lines)
    (h : ∀ q a, q.guard.lines = p.guard.lines → Held q (f q a)) : Held p (as.foldl f p) := by
  have general : ∀ q, q.guard.lines = p.guard.lines → Held q (as.foldl f q) := by
    intro q hq
    induction as generalizing q with
    | nil => exact Held.refl q
    | cons a rest ih => exact (h q a hq).trans (ih _ ((lines q a).trans hq))
  exact general p rfl

theorem figureReleaseRequest_held (e : IntakeEntry) (p : Part) : Held p (figureReleaseRequest e p) := by
  unfold figureReleaseRequest
  refine Held.trans (foldl_held_lines _ _ p (fun q k => ?_) fun q k hq => ?_) (answer_held _ _ _ _)
  · split
    · rw [(releaseFigure_carried _ k q).guard]
    · rfl
  · split
    · refine releaseFigure_held (fun n hn => releasable_asserted ?_) k
      rw [hq] at hn
      exact GuardLine.asserted_of_stops hn
    · exact Held.refl q

/-- R106: a line that is not asserted leaves the hold set of a figure, which another line still holds. -/
theorem removeHold_held {n : LineIx} {p : Part} (h : (p.guard.lines.read n).asserted = false) (k : FigIx) :
    Held p (removeHold n k p) := by
  refine held_of_stopped (by rw [(removeHold_carried n k p).guard]) fun stop _ hp => ?_
  obtain ⟨s, hs⟩ := (allStopAsserted_iff p).mp stop
  have stays : ∀ m, (p.guard.lines.read m).stops = true → member (dropMember (p.figures.read k).hold n.val) m.val = true := by
    intro m hm
    have held := ((hp.1 m hm).2 k).1
    have ne : n.val ≠ m.val := fun e => by
      obtain rfl := Fin.ext e
      rw [GuardLine.asserted_of_stops hm] at h
      cases h
    simp only [member, dropMember, BitVec.getLsbD_and, BitVec.getLsbD_not, BitVec.getLsbD_twoPow] at *
    simp [held, ne]
  have kept : dropMember (p.figures.read k).hold n.val ≠ 0 := member_ne_zero (stays s hs)
  unfold removeHold
  dsimp only
  split
  · rw [if_neg fun h => kept (of_decide_eq_true (Bool.and_eq_true_iff.mp h).1)]
    refine ⟨fun m hm => ⟨(hp.1 m hm).1, fun j => ?_⟩, hp.2⟩
    rw [setFigure_figures, Bank.read_update]
    split
    · exact ⟨stays m hm, ((hp.1 m hm).2 k).2⟩
    · exact (hp.1 m hm).2 j
  · exact hp

/-- R104, R106: one line's settle changes to none. -/
theorem cancelSettle_held (n : LineIx) (p : Part) : Held p (setLine n (fun l => { l with settle := none }) p) := by
  rintro ⟨stops, settled⟩
  have line : ∀ m, (setLine n (fun l => { l with settle := none }) p).guard.lines.read m =
      if m = n then { p.guard.lines.read m with settle := none } else p.guard.lines.read m := by
    intro m
    rw [setLine_guard, Bank.read_update]
    split
    next e => rw [e]
    next => rfl
  refine ⟨fun m hm => stops m ?_, fun m hm => ?_⟩ <;> rw [line] at * <;> split at hm
  · exact hm
  · exact hm
  next e => rw [if_pos e]
  next e => rw [if_neg e]; exact settled m hm

theorem endSettle_held (n : LineIx) (p : Part) : Held p (endSettle n p) := by
  intro hp
  unfold endSettle
  split
  next due =>
    have free : (p.guard.lines.read n).asserted = false := by
      by_contra asserted
      have none := hp.2 n (by simpa using asserted)
      simp [settleDue, none] at due
    refine foldl_held_lines (fun x k => removeHold n k x) _ _ (fun q k => by rw [(removeHold_carried n k q).guard])
      (fun q k hq => removeHold_held ?_ k) (cancelSettle_held n p hp)
    rw [hq]
    simpa [GuardLine.asserted] using free
  next => exact hp

/-! ## One line changes (R101, R104, R107) -/

/-- What `stopsHold` asks for one line. -/
def served (n : LineIx) (p : Part) : Prop :=
  ((p.guard.lines.read n).stops = true → quiet p ∧ holdsEvery n p) ∧
    ((p.guard.lines.read n).asserted = true → (p.guard.lines.read n).settle = none)

theorem stopsHold_iff (p : Part) : stopsHold p ↔ ∀ n, served n p :=
  ⟨fun h n => ⟨h.1 n, h.2 n⟩, fun h => ⟨fun n => (h n).1, fun n => (h n).2⟩⟩

/-- A change of one line's record and a steady operation after it leave the other lines served. -/
theorem served_other {n m : LineIx} (h : m ≠ n) {f : GuardLine → GuardLine} {p q : Part} (steady : Steady (setLine n f p) q)
    (hp : served m p) : served m q := by
  have line : q.guard.lines.read m = p.guard.lines.read m := by
    rw [steady.lines, setLine_guard]
    exact Bank.read_update_ne _ _ _ _ h
  unfold served
  rw [line]
  exact ⟨fun stops => ⟨steady.quiet (hp.1 stops).1, steady.holds m (hp.1 stops).1 (hp.1 stops).2⟩, hp.2⟩

/-- A line that is not asserted asks for nothing. -/
theorem served_of_free {n : LineIx} {p : Part} (h : (p.guard.lines.read n).asserted = false) : served n p :=
  ⟨fun stops => Bool.noConfusion (h.symm.trans (GuardLine.asserted_of_stops stops)),
    fun asserted => Bool.noConfusion (h.symm.trans asserted)⟩

theorem assertLine_steady (n : LineIx) (p : Part) :
    Steady (setLine n (fun l => { l with settle := none }) p) (assertLine n p) :=
  (latchEvent_noted _ _).steady.trans (classEffect_steady _ _)

/-- R104, R105: an assertion leaves its own line served. -/
theorem assertLine_served (n : LineIx) (p : Part) : served n (assertLine n p) := by
  have lines := (assertLine_steady n p).lines
  have line : (assertLine n p).guard.lines.read n = { p.guard.lines.read n with settle := none } := by
    rw [lines, setLine_guard]
    exact Bank.read_update_self _ _ _
  unfold served
  rw [line]
  refine ⟨fun stops => classEffect_stops ?_, fun _ => rfl⟩
  rw [(latchEvent_noted _ _).guard, setLine_guard]
  simp only [Bank.read_update_self]
  exact GuardLine.cls_of_stops stops

theorem takeAssertion_held (n : LineIx) (p : Part) : Held p (takeAssertion n p) := by
  intro hp
  rw [stopsHold_iff] at *
  unfold takeAssertion
  dsimp only
  split
  · intro m
    by_cases h : m = n
    · subst h; exact assertLine_served _ _
    · exact served_other h (assertLine_steady n _) (served_other h (Steady.refl _) (hp m))
  · exact hp

theorem deassertLine_other {n m : LineIx} (h : m ≠ n) {p : Part} (hp : served m p) : served m (deassertLine n p) := by
  unfold deassertLine
  dsimp only
  split
  · exact served_other h (Steady.refl _) hp
  · exact hp

theorem deassertLine_asserted (n m : LineIx) (p : Part) :
    ((deassertLine n p).guard.lines.read m).asserted = (p.guard.lines.read m).asserted := by
  unfold deassertLine
  dsimp only
  split
  · rw [setLine_guard, Bank.read_update]
    split
    next e => rw [e]; rfl
    next => rfl
  · rfl

theorem takeDeassertion_held (n : LineIx) (p : Part) : Held p (takeDeassertion n p) := by
  intro hp
  rw [stopsHold_iff] at *
  unfold takeDeassertion
  dsimp only
  split
  next taken =>
    intro m
    by_cases h : m = n
    · subst h
      refine served_of_free ?_
      rw [deassertLine_asserted, setLine_guard, Bank.read_update_self]
      simp only [Bool.and_eq_true] at taken
      simpa [GuardLine.asserted, GuardLine.takeChange] using taken.2
    · exact deassertLine_other h (served_other h (Steady.refl _) (hp m))
  next => exact hp

/-- R101: but for the first sample after a reset, a sample changes no taken level. -/
theorem sampleInputs_held (levels : BitVec 8) (p : Part) (later : p.guard.awaitingSample = false) :
    Held p (sampleInputs levels p) := by
  have sampled : ∀ (l : GuardLine) (b : Bool), (l.sampled false b).taken = l.taken ∧ (l.sampled false b).settle = l.settle ∧
      (l.sampled false b).config = l.config := by
    intro l b
    unfold GuardLine.sampled
    split
    · contradiction
    · split <;> exact ⟨rfl, rfl, rfl⟩
  have one : ∀ (q : Part) (n : LineIx), Held q (setLine n (·.sampled p.guard.awaitingSample (member levels n.val)) q) := by
    rw [later]
    rintro q n ⟨stops, settled⟩
    have same : ∀ m, (((setLine n (·.sampled false (member levels n.val)) q).guard.lines.read m).asserted =
        (q.guard.lines.read m).asserted) ∧ ((setLine n (·.sampled false (member levels n.val)) q).guard.lines.read m).stops =
        (q.guard.lines.read m).stops ∧ ((setLine n (·.sampled false (member levels n.val)) q).guard.lines.read m).settle =
        (q.guard.lines.read m).settle := by
      intro m
      rw [setLine_guard, Bank.read_update]
      split
      next e =>
        obtain ⟨taken, settle, config⟩ := sampled (q.guard.lines.read n) (member levels n.val)
        simp only [GuardLine.stops, GuardLine.asserted, taken, settle, config, e, and_self]
      next => exact ⟨rfl, rfl, rfl⟩
    refine ⟨fun m hm => stops m ?_, fun m hm => ?_⟩
    · rw [← (same m).2.1]; exact hm
    · rw [(same m).2.2]
      exact settled m (by rw [← (same m).1]; exact hm)
  exact (foldl_held _ allLines p one).trans (held_of_same rfl rfl rfl rfl rfl rfl)

theorem endPulse_held (pin : Pin) (p : Part) : Held p (endPulse pin p) := by
  cases pin <;> exact held_of_same rfl rfl rfl rfl rfl rfl

theorem guardReadRequest_held (e : IntakeEntry) (p : Part) : Held p (guardReadRequest e p) := by
  refine Held.trans (q := { p with guard := { p.guard with lines := p.guard.lines.each fun l => { l with changed := false } } })
    (fun hp => ?_) (answer_held _ _ _ _)
  rw [stopsHold_iff] at *
  intro n
  have h := hp n
  unfold served at *
  rw [Bank.read_each]
  exact h

theorem eventClearRequest_held (e : IntakeEntry) (p : Part) : Held p (eventClearRequest e p) :=
  Held.trans (q := clearEvents _ p) (held_of_same rfl rfl rfl rfl rfl rfl) (answer_held _ _ _ _)


/-! ## Folds over the guard lines -/

theorem foldl_setLine_read (f : LineIx → GuardLine → GuardLine) {ns : List LineIx} (once : ns.Nodup) (p : Part) (m : LineIx) :
    (ns.foldl (fun x n => setLine n (f n) x) p).guard.lines.read m =
      if m ∈ ns then f m (p.guard.lines.read m) else p.guard.lines.read m := by
  induction ns generalizing p with
  | nil => simp
  | cons n rest ih =>
    obtain ⟨fresh, once⟩ := List.nodup_cons.mp once
    rw [List.foldl_cons, ih once, setLine_guard, Bank.read_update]
    by_cases e : m = n
    · subst e; simp [fresh]
    · simp [e]

theorem foldl_setLine_frame (f : LineIx → GuardLine → GuardLine) (ns : List LineIx) (p : Part) :
    ∃ lines, ns.foldl (fun x n => setLine n (f n) x) p = { p with guard := { p.guard with lines := lines } } := by
  induction ns generalizing p with
  | nil => exact ⟨_, rfl⟩
  | cons n rest ih =>
    obtain ⟨lines, h⟩ := ih (setLine n (f n) p)
    exact ⟨lines, by rw [List.foldl_cons, h]; rfl⟩

/-- Each of the eight lines is changed by itself, and nothing else. -/
theorem setLines_eq (f : LineIx → GuardLine → GuardLine) (p : Part) :
    allLines.foldl (fun x n => setLine n (f n) x) p =
      { p with guard := { p.guard with lines := Vector.ofFn fun n => f n (p.guard.lines.read n) } } := by
  obtain ⟨lines, h⟩ := foldl_setLine_frame f allLines p
  have reads : lines = Vector.ofFn fun n => f n (p.guard.lines.read n) := by
    refine Bank.ext_read _ _ fun m => ?_
    have := foldl_setLine_read f (List.nodup_finRange 8) p m
    rw [Bank.read_ofFn]
    rw [if_pos (List.mem_finRange m)] at this
    rw [← this]
    exact congrArg (fun q : Part => q.guard.lines.read m) h.symm
  rw [h, reads]

/-! ## APPLY CONFIG (R107, R161) -/

/-- What the re-examination of a line that was `old` before the request is owed. -/
def owed (old : GuardLine) (n : LineIx) (p : Part) : Prop :=
  (old.stops = true → quiet p ∧ holdsEvery n p) ∧ (old.asserted = true → (p.guard.lines.read n).settle = none)

/-- R107: a re-examination changes its own line and is steady from there. -/
theorem reexamine_steady (old : GuardLine) (n : LineIx) (p : Part) : ∃ f, Steady (setLine n f p) (reexamine old n p) := by
  have same : Steady (setLine n id p) p := by
    have : p.guard.lines.update n id = p.guard.lines := Bank.update_of_fixed rfl
    exact steady_of_same (by rw [setLine_guard]; exact this.symm) rfl rfl rfl rfl rfl
  unfold reexamine
  dsimp only
  split
  · exact ⟨_, assertLine_steady n p⟩
  · unfold deassertLine
    dsimp only
    split
    · exact ⟨_, Steady.refl _⟩
    · exact ⟨_, same⟩
  · split
    · exact ⟨_, same⟩
    · exact ⟨_, (same.trans (latchEvent_noted _ _).steady).trans (classEffect_steady _ _)⟩
  · unfold reexamineSettle
    dsimp only
    split
    · exact ⟨_, Steady.refl _⟩
    · exact ⟨_, Steady.refl _⟩
    · exact ⟨_, same⟩
    · exact ⟨_, same⟩

theorem owed_other {old old' : GuardLine} {n m : LineIx} (h : m ≠ n) {p : Part} (hp : owed old m p) :
    owed old m (reexamine old' n p) := by
  obtain ⟨f, steady⟩ := reexamine_steady old' n p
  have line : (reexamine old' n p).guard.lines.read m = p.guard.lines.read m := by
    rw [steady.lines, setLine_guard]
    exact Bank.read_update_ne _ _ _ _ h
  unfold owed
  rw [line]
  exact ⟨fun stops => ⟨steady.quiet (hp.1 stops).1, steady.holds m (hp.1 stops).1 (hp.1 stops).2⟩, hp.2⟩

/-- R107: a line that was asserted under the same class and zones has had its effect; any other has it now. -/
theorem reexamine_served {old : GuardLine} {n : LineIx} {p : Part} (hp : owed old n p) : served n (reexamine old n p) := by
  unfold reexamine
  dsimp only
  split
  · exact assertLine_served n p
  next _ _ _ free => exact served_of_free (by rw [deassertLine_asserted]; exact free)
  next was _ =>
    split
    next same =>
      refine ⟨fun stops => hp.1 ?_, fun _ => hp.2 was⟩
      simp only [Bool.and_eq_true, decide_eq_true_eq] at same
      simp [GuardLine.stops, was, same.1, GuardLine.cls_of_stops stops]
    next =>
      have lines := (classEffect_steady n (latchEvent (Source.guardLine n) p)).lines.trans
        (congrArg GuardUnit.lines (latchEvent_noted (Source.guardLine n) p).guard)
      unfold served
      rw [lines]
      refine ⟨fun stops => classEffect_stops ?_, fun _ => hp.2 was⟩
      rw [(latchEvent_noted _ _).guard]
      exact GuardLine.cls_of_stops stops
  next _ _ _ free =>
    refine served_of_free ?_
    unfold reexamineSettle
    dsimp only
    have settle : ∀ x, ((setLine n (fun l => { l with settle := x }) p).guard.lines.read n).asserted = false := by
      intro x
      rw [setLine_guard, Bank.read_update_self]
      exact free
    split
    · exact settle _
    · rw [setLine_guard, Bank.read_update_self]
      exact free
    · exact free
    · exact free

theorem foldl_reexamine_served (old : LineIx → GuardLine) {ns : List LineIx} (once : ns.Nodup) {p : Part}
    (ahead : ∀ m ∈ ns, owed (old m) m p) (done : ∀ m, m ∉ ns → served m p) (m : LineIx) :
    served m (ns.foldl (fun x n => reexamine (old n) n x) p) := by
  induction ns generalizing p with
  | nil => exact done m List.not_mem_nil
  | cons n rest ih =>
    obtain ⟨fresh, once⟩ := List.nodup_cons.mp once
    refine ih once (fun k hk => owed_other (fun e : k = n => fresh (e ▸ hk)) (ahead k (List.mem_cons_of_mem _ hk))) fun k hk => ?_
    by_cases e : k = n
    · rw [e]; exact reexamine_served (ahead n List.mem_cons_self)
    · obtain ⟨f, steady⟩ := reexamine_steady (old n) n p
      exact served_other e steady (done k fun h => (List.mem_cons.mp h).elim e hk)

theorem applyGuards_held (w : Nat → Word) (p : Part) : Held p (applyGuards w p) := by
  rintro ⟨stops, settled⟩
  unfold applyGuards
  dsimp only
  have reads := foldl_setLine_read (fun n l => { l with config := guardConfigOf w n }) (List.nodup_finRange 8) p
  obtain ⟨lines, configured⟩ := foldl_setLine_frame (fun n l => { l with config := guardConfigOf w n }) allLines p
  rw [show List.finRange 8 = allLines from rfl, configured] at reads
  have still : quiet p → quiet { p with guard := { p.guard with lines := lines } } := id
  have hold : ∀ m, holdsEvery m p → holdsEvery m { p with guard := { p.guard with lines := lines } } := fun _ => id
  rw [configured, stopsHold_iff]
  generalize { p with guard := { p.guard with lines := lines } } = q at *
  refine fun n => foldl_reexamine_served p.guard.lines.read (List.nodup_finRange 8) (fun m _ =>
    ⟨fun stop => ⟨still (stops m stop).1, hold m (stops m stop).2⟩, fun was => ?_⟩)
    (fun m h => (h (List.mem_finRange m)).elim) n
  rw [reads m, if_pos (show m ∈ allLines from List.mem_finRange m)]
  exact settled m was

theorem applyBlock_held (w : Nat → Word) (p : Part) : Held p (applyBlock w p) := by
  have events : ∀ q, Held q (applyEvents w q) := by
    intro q
    have configured : Held q { q with events := q.events.configured w } := held_of_same rfl rfl rfl rfl rfl rfl
    unfold applyEvents
    dsimp only
    split
    · exact configured
    · exact configured.trans (raiseAttention_noted _).steady.held
  have tests : ∀ old q, Held q (applyTests old q) := by
    intro old q
    have read : Held q (if q.settings.lookahead = old.lookahead then q else allSlots.foldl (fun x s => readDueSteps s x) q) := by
      split
      · exact Held.refl q
      · exact (foldl_steady _ _ _ fun x s => readDueSteps_steady s x).held
    unfold applyTests
    dsimp only
    split
    · exact read
    · exact read.trans (releaseDue_steady _).held
  have front : Held p (applyLevels w (applySettings w p)) := held_of_same rfl rfl rfl rfl rfl rfl
  have timers : ∀ q, Held q (applyTimers w q) := fun q => held_of_same rfl rfl rfl rfl rfl rfl
  exact ((((front.trans (events _)).trans (applyGuards_held _ _)).trans (timers _)).trans
    (foldl_steady _ _ _ fun q k => clampFigure_steady k q).held).trans (tests _ _)

theorem applyConfigRequest_held (e : IntakeEntry) (p : Part) : Held p (applyConfigRequest e p) := by
  have read := (readEach_noted .management (List.range 64) p).steady.held
  unfold applyConfigRequest
  dsimp only
  split
  · exact read.trans (answer_held _ _ _ _)
  · exact (read.trans (applyBlock_held _ _)).trans (answer_held _ _ _ _)

end Sys2Proof.Machine
end

section
/-! An ALL-STOP lasts (R105): shows by request, tables, status, verify and resets, and the statement. -/

namespace Sys2Proof.Machine

/-! ## Shows by request -/

theorem showStartRequest_held (e : IntakeEntry) (p : Part) : Held p (showStartRequest e p) := by
  unfold showStartRequest
  split
  next i k _ _ =>
    split
    · exact answer_held _ _ _ _
    next free =>
      split
      · exact answer_held _ _ _ _
      · refine held_of_stopped ?_ fun stop _ => (free stop).elim
        have checked := (checkShow_noted k p).grounded
        have all : Grounded p (judgeShowStart e i k p) := by
          unfold judgeShowStart
          dsimp only
          split
          · exact checked.trans (answer_noted _ _ _ _).grounded
          · split
            · exact checked.trans (answer_noted _ _ _ _).grounded
            · split
              · exact (checked.trans (replaceShow_grounded _ _ _ _ _ _ _)).trans (answer_noted _ _ _ _).grounded
              · exact (checked.trans (startShow_grounded _ _ _ _ _ _ _)).trans (answer_noted _ _ _ _).grounded
        rw [all.guard]
  · exact answer_held _ _ _ _

theorem Slot.busy_of_idle {x : Slot} (h : x.state = .idle) : x.busy = false := by simp [Slot.busy, h]

theorem stopShow_grounded (i : SlotIx) (discard : Bool) (p : Part) : Grounded p (stopShow i discard p) := by
  unfold stopShow
  dsimp only
  split
  · exact (idleSlot_grounded _ _).trans (setSlot_grounded _ _ _)
  · exact (idleSlot_grounded _ _).trans (considerPending_grounded _ _)

theorem showStopRequest_held (e : IntakeEntry) (p : Part) : Held p (showStopRequest e p) := by
  unfold showStopRequest
  split
  · exact answer_held _ _ _ _
  next i _ =>
    refine Held.trans (Steady.held ?_) (answer_held _ _ _ _)
    split
    next busy =>
      exact steady_of_quiet (by rw [(stopShow_grounded _ _ _).guard]) fun ⟨idle, _⟩ =>
        Bool.noConfusion ((Slot.busy_of_idle (idle i)).symm.trans busy)
    next => exact Steady.refl p

theorem showHoldRequest_held (e : IntakeEntry) (p : Part) : Held p (showHoldRequest e p) := by
  unfold showHoldRequest
  split
  · exact answer_held _ _ _ _
  next i _ =>
    split
    next running =>
      have paused : Steady p (setSlot i (fun x => { x with state := .held, hold := some p.lineTime }) p) :=
        steady_of_quiet rfl fun ⟨idle, _⟩ => by rw [idle i] at running; cases running
      exact paused.held.trans (answer_held _ _ _ _)
    next => exact answer_held _ _ _ _

theorem showResumeRequest_keepsStops (e : IntakeEntry) (p : Part) : Held p (showResumeRequest e p) := by
  unfold showResumeRequest
  split
  · exact answer_held _ _ _ _
  next i _ =>
    split
    next paused =>
      refine Held.trans (Steady.held ?_) (answer_held _ _ _ _)
      refine Steady.trans ?_ (endShow_steady _ _)
      refine Steady.trans ?_ (readDueSteps_steady _ _)
      exact steady_of_quiet rfl fun ⟨idle, _⟩ => by rw [idle i] at paused; cases paused
    next => exact answer_held _ _ _ _

/-! ## The line's filters -/

theorem filterWriteRequest_held (e : IntakeEntry) (p : Part) : Held p (filterWriteRequest e p) := by
  unfold filterWriteRequest
  split
  · split
    · exact answer_held _ _ _ _
    · exact (setFilterUnit_held _ p).trans (answer_held _ _ _ _)
  · exact answer_held _ _ _ _

theorem maskWriteRequest_held (e : IntakeEntry) (p : Part) : Held p (maskWriteRequest e p) := by
  unfold maskWriteRequest
  split
  · exact answer_held _ _ _ _
  · split
    · exact answer_held _ _ _ _
    · exact (setFilterUnit_held _ p).trans (answer_held _ _ _ _)

theorem filterReadRequest_held (e : IntakeEntry) (p : Part) : Held p (filterReadRequest e p) := by
  unfold filterReadRequest
  split <;> exact answer_held _ _ _ _

theorem filterEnableRequest_held (e : IntakeEntry) (p : Part) : Held p (filterEnableRequest e p) := by
  unfold filterEnableRequest
  split
  · exact (setFilterUnit_held _ p).trans (answer_held _ _ _ _)
  · exact (setFilterUnit_held _ p).trans (answer_held _ _ _ _)
  · exact answer_held _ _ _ _

/-! ## Tables, status and verify (chapters 10 and 11) -/

theorem setTable_held (t : Table) (p : Part) : Held p { p with table := t } := held_of_same rfl rfl rfl rfl rfl rfl

theorem tableWriteRequest_held (e : IntakeEntry) (p : Part) : Held p (tableWriteRequest e p) := by
  unfold tableWriteRequest
  dsimp only
  split
  · exact (setTable_held _ p).trans (answer_held _ _ _ _)
  · exact answer_held _ _ _ _

theorem tableReadRequest_held (e : IntakeEntry) (p : Part) : Held p (tableReadRequest e p) := by
  unfold tableReadRequest
  dsimp only
  split
  · exact (readEach_noted _ _ p).steady.held.trans (answer_held _ _ _ _)
  · exact answer_held _ _ _ _

theorem errorReadRequest_held (e : IntakeEntry) (p : Part) : Held p (errorReadRequest e p) := by
  have bytes : Held p (captureBytes p).2 := by
    unfold captureBytes
    dsimp only
    split
    · exact (drawBytes_steady 4 p).held
    · exact Held.refl p
    · exact Held.refl p
  refine Held.trans ?_ (answer_held _ _ _ _)
  split
  · exact bytes
  · exact bytes.trans (setTable_held _ _)

theorem rejectManagement_held (e : IntakeEntry) (p : Part) : Held p (rejectManagement e p) :=
  held_of_same rfl rfl rfl rfl rfl rfl

theorem statusPage_steady {page part : Nat} {p q : Part} {d : List Byte} (h : statusPage page part p = some (d, q)) :
    Steady p q := by
  have drawn : ∀ i, Steady p (slotPage i p).2 := by
    intro i
    unfold slotPage
    dsimp only
    split
    · exact Steady.refl p
    · exact drawBytes_steady 9 p
  unfold statusPage at h
  split at h
  · split at h
    · cases h; exact Steady.refl p
    · obtain ⟨i, _, e⟩ := Option.map_eq_some_iff.mp h
      rw [show q = (slotPage i p).2 by rw [e]]
      exact drawn i
  · split at h
    · cases h; exact Steady.refl p
    · split at h <;> cases h
      exact Steady.refl p
  · split at h <;> cases h
    exact Steady.refl p
  · split at h <;> cases h <;> exact Steady.refl p
  · split at h <;> cases h
    exact Steady.refl p
  · cases h

theorem statusReadRequest_held (e : IntakeEntry) (p : Part) : Held p (statusReadRequest e p) := by
  have cleared : ∀ q, Held q (clearCounters q) := fun q => held_of_same rfl rfl rfl rfl rfl rfl
  unfold statusReadRequest
  dsimp only
  split
  · exact answer_held _ _ _ _
  · split
    · exact answer_held _ _ _ _
    next page =>
      refine Held.trans ?_ (answer_held _ _ _ _)
      split
      · exact (statusPage_steady page).held.trans (cleared _)
      · exact (statusPage_steady page).held

theorem setVerify_held (v : VerifyUnit) (p : Part) : Held p { p with verify := v } := held_of_same rfl rfl rfl rfl rfl rfl

theorem sweepRead_held (p : Part) : Held p (sweepRead p) := by
  have read := fun v => (readWord_noted .verify (p.verify.sweep.address p.verify.result.showIx) p).steady.held.trans
    (setVerify_held v _)
  have finished : ∀ q, Held q (finishVerify q) := fun q => (setVerify_held _ q).trans (latchEvent_held _ _)
  unfold sweepRead
  dsimp only
  split
  · exact (read _).trans (finished _)
  · exact read _

theorem sweepLoop_held (n : Nat) (p : Part) : Held p (sweepLoop n p) := by
  induction n generalizing p with
  | zero => exact Held.refl p
  | succ n ih =>
    unfold sweepLoop
    split
    · exact (sweepRead_held p).trans (ih _)
    · exact Held.refl p

theorem verifyShowRequest_held (e : IntakeEntry) (p : Part) : Held p (verifyShowRequest e p) := by
  unfold verifyShowRequest
  split
  · exact answer_held _ _ _ _
  · split
    · exact answer_held _ _ _ _
    · exact (setVerify_held _ p).trans (answer_held _ _ _ _)

/-! ## Resets: a line at its defaults is of class NOTE (R102) -/

theorem beginLineBreak_held (p : Part) : Held p (beginLineBreak p) := by
  have begun : ∀ q : Part, Held q (cutTransmitters (silenceReceivers q)) := fun q => held_of_same rfl rfl rfl rfl rfl rfl
  have phased : ∀ x n, Held p { p with phase := x, resetMs := n } := fun _ _ => held_of_same rfl rfl rfl rfl rfl rfl
  unfold beginLineBreak
  split
  · exact (phased _ _).trans (begun _)
  · exact (phased _ _).trans (begun _)
  · exact Held.refl p

theorem softResetRequest_held (e : IntakeEntry) (p : Part) : Held p (softResetRequest e p) := held_of_same rfl rfl rfl rfl rfl rfl

theorem kept_stopsHold {p : Part} {u : GuardUnit} (h : p.guard = u.kept) : stopsHold p := by
  have line : ∀ n, p.guard.lines.read n = { GuardLine.initial with taken := (u.lines.read n).taken } := by
    intro n
    rw [h, GuardUnit.kept, Bank.read_each]
  refine stopsHold_of_free (fun n => ?_) fun n => ?_ <;> rw [line]
  · exact Bool.and_false _
  · rfl

theorem restFigure_carried (k : FigIx) (p : Part) : Carried p (restFigure k p) := by
  unfold restFigure
  dsimp only
  split
  · exact (readFigure_carried _ _ p).trans (setFigure_carried _ _ _)
  · exact readFigure_carried _ _ p

theorem restFigures_carried (p : Part) : Carried p (restFigures p) := foldl_carried _ _ p fun q k => restFigure_carried k q

theorem leaveReset_held (p : Part) : Held p (leaveReset p) := by
  intro _
  have rested := (latchEvent_carried Source.resetOccurred (resetBlocks p)).trans (restFigures_carried _)
  have started : stopsHold (restFigures (latchEvent Source.resetOccurred (resetBlocks p))) :=
    kept_stopsHold (u := p.guard) rested.guard
  unfold leaveReset resume
  split
  · exact catchUp_held _ started
  · exact started

theorem endLineBreak_held (p : Part) : Held p (endLineBreak p) := by
  unfold endLineBreak
  split
  · exact leaveReset_held p
  · exact Held.refl p

theorem endSoftReset_held (p : Part) : Held p (endSoftReset p) := by
  unfold endSoftReset
  split
  · exact leaveReset_held p
  · exact Held.refl p

theorem powerOn_held (p : Part) : Held p (powerOn p) := fun _ => initial_stopsHold

theorem idle_held (s : State) : Held s.part (idle s).part := by
  unfold idle
  split
  · exact Held.refl _
  · dsimp only
    unfold passMillisecond
    split <;> exact held_of_same rfl rfl rfl rfl rfl rfl

/-! ## Every command -/

theorem whenRunning_held {f : Part → Part} {p : Part} (h : Held p (f p)) : Held p (whenRunning f p) := by
  unfold whenRunning
  split
  · exact h
  · exact Held.refl p

/-- R105: an ALL-STOP lasts through every command but the first sample after a reset. -/
theorem exec_held (c : Instr) (s : State) (later : s.part.guard.awaitingSample = false) :
    ∃ q, exec c s = .next (s.withPart q) ∧ Held s.part q := by
  cases c with
  | powerOnReset => exact ⟨_, rfl, powerOn_held _⟩
  | frameReceived w f x => exact ⟨_, rfl, whenRunning_held (receiveFrame_held _ _ _)⟩
  | lineBreakReset => exact ⟨_, rfl, beginLineBreak_held _⟩
  | lbrEnd => exact ⟨_, rfl, endLineBreak_held _⟩
  | softResetEnd => exact ⟨_, rfl, endSoftReset_held _⟩
  | badStopBit w => exact ⟨_, rfl, whenRunning_held (discardFrame_held _ _ _)⟩
  | lengthAbove32 w n => exact ⟨_, rfl, whenRunning_held (overlongFrame_held _ _ _)⟩
  | runOnCharacter w => exact ⟨_, rfl, whenRunning_held (runOn_held _ _)⟩
  | truncation w => exact ⟨_, rfl, whenRunning_held (discardFrame_held _ _ _)⟩
  | receiverReady w => exact ⟨_, rfl, whenRunning_held (becomeReady_held _ _)⟩
  | downlineBreak => exact ⟨_, rfl, whenRunning_held (beginBreak_held _)⟩
  | downlineBreakEnd => exact ⟨_, rfl, whenRunning_held (endBreak_held _)⟩
  | downlineTransmitStart => exact ⟨_, rfl, whenRunning_held (startDownline_held _)⟩
  | uplineTransmitStart => exact ⟨_, rfl, whenRunning_held (startUpline_held _)⟩
  | frameSent w => exact ⟨_, rfl, setPort_held _ _ _⟩
  | spacingEnd w => exact ⟨_, rfl, setPort_held _ _ _⟩
  | clockAdvance => exact ⟨_, rfl, setCal_held _ _⟩
  | minuteBoundaryEvaluation => exact ⟨_, rfl, whenRunning_held (passBoundary_held _)⟩
  | timeFrameTaken => exact ⟨_, rfl, whenRunning_held (takeTimeFrame_held _)⟩
  | cueTimerOverflow t => exact ⟨_, rfl, whenRunning_held (countPastTop_held _ _)⟩
  | cueTimerCount t => exact ⟨_, rfl, whenRunning_held (setTimer_held _ _ _)⟩
  | showEnd i => exact ⟨_, rfl, whenRunning_held (endShow_steady _ _).held⟩
  | pendingExpiry i => exact ⟨_, rfl, whenRunning_held (expirePending_steady _ _).held⟩
  | barrelStepRead i => exact ⟨_, rfl, whenRunning_held (readDueSteps_steady _ _).held⟩
  | strikeRelease => exact ⟨_, rfl, whenRunning_held (releaseDue_steady _).held⟩
  | coolingTick => exact ⟨_, rfl, whenRunning_held (coolTick_held _)⟩
  | coilReportTaken => exact ⟨_, rfl, whenRunning_held (takeCoilReport_held _)⟩
  | motionPeriod => exact ⟨_, rfl, whenRunning_held (motionPeriod_held _)⟩
  | positionReportTaken => exact ⟨_, rfl, whenRunning_held (takePositionReport_held _)⟩
  | guardInputSample l => exact ⟨_, rfl, whenRunning_held (sampleInputs_held _ _ later)⟩
  | guardAssertion n => exact ⟨_, rfl, whenRunning_held (takeAssertion_held _ _)⟩
  | guardDeassertion n => exact ⟨_, rfl, whenRunning_held (takeDeassertion_held _ _)⟩
  | settleEnd n => exact ⟨_, rfl, whenRunning_held (endSettle_held _ _)⟩
  | pulseEnd x => exact ⟨_, rfl, whenRunning_held (endPulse_held _ _)⟩
  | verifySweep => exact ⟨_, rfl, whenRunning_held (sweepLoop_held _ _)⟩
  | tableWrite => exact ⟨_, rfl, whenRunning_held (onRequest_held _ tableWriteRequest_held)⟩
  | tableRead => exact ⟨_, rfl, whenRunning_held (onRequest_held _ tableReadRequest_held)⟩
  | applyConfig => exact ⟨_, rfl, whenRunning_held (onRequest_held _ applyConfigRequest_held)⟩
  | filterWrite => exact ⟨_, rfl, whenRunning_held (onRequest_held _ filterWriteRequest_held)⟩
  | maskWrite => exact ⟨_, rfl, whenRunning_held (onRequest_held _ maskWriteRequest_held)⟩
  | filterRead => exact ⟨_, rfl, whenRunning_held (onRequest_held _ filterReadRequest_held)⟩
  | filterEnable => exact ⟨_, rfl, whenRunning_held (onRequest_held _ filterEnableRequest_held)⟩
  | showStart => exact ⟨_, rfl, whenRunning_held (onRequest_held _ showStartRequest_held)⟩
  | showStop => exact ⟨_, rfl, whenRunning_held (onRequest_held _ showStopRequest_held)⟩
  | showHold => exact ⟨_, rfl, whenRunning_held (onRequest_held _ showHoldRequest_held)⟩
  | showResume => exact ⟨_, rfl, whenRunning_held (onRequest_held _ showResumeRequest_keepsStops)⟩
  | verifyShow => exact ⟨_, rfl, whenRunning_held (onRequest_held _ verifyShowRequest_held)⟩
  | figureRelease => exact ⟨_, rfl, whenRunning_held (onRequest_held _ figureReleaseRequest_held)⟩
  | bellService => exact ⟨_, rfl, whenRunning_held (onRequest_held _ bellServiceRequest_held)⟩
  | timerRun => exact ⟨_, rfl, whenRunning_held (onTimerControl_held _ fun _ _ q => setTimer_answered_held _ _ _ _ q)⟩
  | timerStop => exact ⟨_, rfl, whenRunning_held (onTimerControl_held _ fun _ _ q => setTimer_answered_held _ _ _ _ q)⟩
  | timerStep => exact ⟨_, rfl, whenRunning_held (onTimerControl_held _ timerStepRequest_held)⟩
  | timerTransfer => exact ⟨_, rfl, whenRunning_held (onTimerControl_held _ fun _ _ q => setTimer_answered_held _ _ _ _ q)⟩
  | timerSetReload => exact ⟨_, rfl, whenRunning_held (onTimerControl_held _ fun _ _ q => setTimer_answered_held _ _ _ _ q)⟩
  | timerSetBinding => exact ⟨_, rfl, whenRunning_held (onTimerControl_held _ timerSetBindingRequest_held)⟩
  | eventRead => exact ⟨_, rfl, whenRunning_held (onRequest_held _ fun _ _ => answer_held _ _ _ _)⟩
  | eventClear => exact ⟨_, rfl, whenRunning_held (onRequest_held _ eventClearRequest_held)⟩
  | guardRead => exact ⟨_, rfl, whenRunning_held (onRequest_held _ guardReadRequest_held)⟩
  | statusRead => exact ⟨_, rfl, whenRunning_held (onRequest_held _ statusReadRequest_held)⟩
  | errorRead => exact ⟨_, rfl, whenRunning_held (onRequest_held _ errorReadRequest_held)⟩
  | queueFlush => exact ⟨_, rfl, whenRunning_held (onRequest_held _ queueFlushRequest_held)⟩
  | softReset => exact ⟨_, rfl, whenRunning_held (onRequest_held _ softResetRequest_held)⟩
  | unknownRequest => exact ⟨_, rfl, whenRunning_held (takeManagement_held _ fun _ _ => answer_held _ _ _ _)⟩
  | emptyRequest => exact ⟨_, rfl, whenRunning_held (takeManagement_held _ fun _ _ => answer_held _ _ _ _)⟩
  | nonRequestEntryDiscarded => exact ⟨_, rfl, whenRunning_held (takeManagement_held _ rejectManagement_held)⟩

/-- Settles O58: each command is `exec_held`. -/
theorem allStopLastsThroughEveryStep : Obligations.AllStopLastsThroughEveryStep := by
  intro s t holds later h
  unfold step at h
  split at h
  next c rest _ =>
    obtain ⟨q, next, held⟩ := exec_held c { s with pending := rest } later
    rw [next] at h
    cases h
    exact held holds
  next => cases h; exact idle_held s holds

end Sys2Proof.Machine
end

section
/-! The steps and the resets: what a step takes, what a reset leaves and how the resets begin. -/

namespace Sys2Proof.Machine

/-- Settles O1. -/
theorem stepTakesTheFrontCommand : Obligations.StepTakesTheFrontCommand := fun _ _ _ => rfl

/-- Settles O2. -/
theorem emptyQueueTakesWhatIsDueOrAMillisecond : Obligations.EmptyQueueTakesWhatIsDueOrAMillisecond := by
  intro p
  refine ⟨fun c cs due => ?_, fun due running => ?_⟩
  · simp [step, idle, due]
  · simp [step, idle, due, passMillisecond, afterMillisecond, running]

/-- Settles O3. -/
theorem inResetOtherCommandsChangeNothing : Obligations.InResetOtherCommandsChangeNothing := by
  intro c s reset power lineBreak lbrEnd softEnd advance sent spaced
  cases c with
  | powerOnReset => exact (power rfl).elim
  | lineBreakReset => exact (lineBreak rfl).elim
  | lbrEnd => exact (lbrEnd rfl).elim
  | softResetEnd => exact (softEnd rfl).elim
  | clockAdvance => exact (advance rfl).elim
  | frameSent w => exact (sent w rfl).elim
  | spacingEnd w => exact (spaced w rfl).elim
  | _ => exact run_reset _ s reset

/-! ## The values after a power-on reset (R125, R126, R128) -/

theorem initial_filter (i : FilterIx) : Part.initial.filter.filters.read i = Filter.default i := Bank.read_ofFn _ _
theorem initial_mask (m : Fin 4) : Part.initial.filter.masks.read m = Mask.default m := Bank.read_ofFn _ _

theorem Filter.default_zero : ∀ i : FilterIx, 5 ≤ i.val → Filter.default i = Filter.zero := by decide
theorem Mask.default_zero : ∀ m : Fin 4, 2 ≤ m.val → Mask.default m = { dest := 0, source := 0, kind := 0, selector := 0 } := by
  decide

theorem initial_slot (i : SlotIx) : Part.initial.slots.read i = Slot.initial := Bank.read_const _ _ _
theorem initial_context (i : SlotIx) : Part.initial.contexts.read i = BarrelContext.initial := Bank.read_const _ _ _
theorem initial_bell (b : BellIx) : Part.initial.strikes.bells.read b = BellState.initial := Bank.read_const _ _ _
theorem initial_figure (k : FigIx) : Part.initial.figures.read k = LiveFigure.initial := Bank.read_const _ _ _
theorem initial_line (n : LineIx) : Part.initial.guard.lines.read n = GuardLine.initial := Bank.read_const _ _ _
theorem initial_timer (t : TimerIx) : Part.initial.cal.timers.read t = CueTimer.initial := Bank.read_const _ _ _

/-- Settles O4: the fields of `Part.initial`, bank by bank. -/
theorem resetLeavesTheValuesTheManualGives : Obligations.ResetLeavesTheValuesTheManualGives := by
  unfold Obligations.ResetLeavesTheValuesTheManualGives
  intro p
  have stop : allStopAsserted p = false := by
    refine Bool.eq_false_iff.mpr fun h => ?_
    obtain ⟨n, hn⟩ := (allStopAsserted_iff p).mp h
    rw [show p.guard.lines.read n = GuardLine.initial from initial_line n] at hn
    cases hn
  refine ⟨rfl, rfl, rfl, rfl, rfl, rfl, rfl, rfl, initial_timer, fun i => ?_, fun b => Bank.read_const _ _ _,
    fun k => Bank.read_const _ _ _, rfl, fun b => ?_, initial_figure, fun n => ?_, rfl, rfl, rfl, rfl, rfl, rfl, rfl, rfl, rfl,
    rfl, ?_, ?_, rfl, rfl, rfl, rfl, rfl, rfl, rfl, rfl, ⟨initial_filter 0, initial_filter 1, initial_filter 2, initial_filter 3,
    initial_filter 4, fun i hi => ?_⟩, initial_mask 0, initial_mask 1, fun m hm => (initial_mask m).trans (Mask.default_zero m hm),
    rfl, rfl, rfl, rfl, rfl, rfl, rfl, rfl, rfl, rfl, rfl, rfl, rfl, fun a => rfl, rfl, rfl, rfl, rfl⟩
  · rw [show p.slots.read i = Slot.initial from initial_slot i,
      show p.contexts.read i = BarrelContext.initial from initial_context i]
    exact ⟨rfl, rfl, rfl, rfl⟩
  · rw [show p.strikes.bells.read b = BellState.initial from initial_bell b]
    exact ⟨rfl, rfl, rfl⟩
  · rw [show p.guard.lines.read n = GuardLine.initial from initial_line n]
    exact ⟨rfl, rfl, rfl, rfl⟩
  · rw [stopActive, stop]
    decide
  · unfold beaconActive
    decide
  · exact (initial_filter i).trans (Filter.default_zero i hi)

/-! ## How the resets begin (R119, R126, R170) -/

/-- Settles O5. -/
theorem resetsBegin : Obligations.ResetsBegin := by
  intro s
  refine ⟨rfl, fun running => ⟨?_, ?_, ?_⟩, fun broken => ?_, fun e rest waiting => ?_⟩
  · show s.run beginLineBreak = _
    simp [State.run_eq, beginLineBreak, running, cutTransmitters, silenceReceivers, setPort, setReceiver, State.withPart]
  · rfl
  · rfl
  · show s.run beginLineBreak = _
    simp [State.run_eq, beginLineBreak, broken]
  · exact onRequest_waiting .softReset softResetRequest s e rest waiting

/-- Settles O10. -/
theorem downlineBreakLatchesOnce : Obligations.DownlineBreakLatchesOnce := by
  intro s running
  refine ⟨fun whole => ?_, fun broken => ⟨?_, ?_⟩⟩
  · refine (run_running beginBreak s running).trans ?_
    simp [beginBreak, whole, setReceiver, setPort, Source.downlineBreak]
  · refine (run_running beginBreak s running).trans ?_
    simp [beginBreak, broken, State.withPart]
  · refine (run_running endBreak s running).trans ?_
    simp [endBreak, broken, setReceiver, setPort]

theorem discardFrame_taken {w : Port} {p : Part} (h : (portOf w p).rx.takesFrame = true) (x : RxState) :
    discardFrame w x p = setPort w (fun l => { l with
      rx := { l.rx with state := x, runOn := false }
      counts := { l.counts with checkErrors := bump l.counts.checkErrors } }) p := by
  rw [discardFrame, if_pos h]
  cases w <;> rfl

/-- Settles O9. -/
theorem receiveErrorsAreCountedOnce : Obligations.ReceiveErrorsAreCountedOnce := by
  intro s w running r after
  refine ⟨fun takes => ⟨?_, ?_, fun n long => ?_⟩, fun hunting whole => ⟨fun first => ?_, fun later => ?_, ?_⟩⟩
  · exact (run_running _ s running).trans (by rw [discardFrame_taken takes])
  · exact (run_running _ s running).trans (by rw [discardFrame_taken takes])
  · exact (run_running _ s running).trans (by rw [overlongFrame, if_pos long, discardFrame_taken takes])
  · refine (run_running _ s running).trans ?_
    have counts : runOn w s.part = setReceiver w (fun x => { x with runOn := false }) (countCheckError w s.part) :=
      if_pos (by simp [show (portOf w s.part).rx.state = .hunt from hunting, show (portOf w s.part).rx.inBreak = false from whole,
        show (portOf w s.part).rx.runOn = true from first])
    rw [counts]
    cases w <;> simp only [after, setReceiver, countCheckError, setPortCounts, setPort] <;> rw [← hunting] <;> rfl
  · refine (run_running _ s running).trans ?_
    simp [runOn, show (portOf w s.part).rx.runOn = false from later, State.withPart]
  · refine (run_running _ s running).trans ?_
    simp [becomeReady, show (portOf w s.part).rx.state = .hunt from hunting, show (portOf w s.part).rx.inBreak = false from whole,
      setReceiver, Receiver.enter]

/-- Settles O32. -/
theorem testValuesOfTheManual : Obligations.TestValuesOfTheManual := by
  unfold Obligations.TestValuesOfTheManual
  decide +kernel

end Sys2Proof.Machine
end

section
/-! The line and the transmitters: frames received and frames sent. -/

namespace Sys2Proof.Machine

/-! ## Received frames (R117, R131) -/

theorem setPort_setPort (w : Port) (f g : LinePort → LinePort) (p : Part) :
    setPort w g (setPort w f p) = setPort w (fun l => g (f l)) p := by cases w <;> rfl

theorem setPort_setOut (w : Port) (f : Outbound → Outbound) (g : LinePort → LinePort) (p : Part) :
    setPort w g (setOut f p) = setOut f (setPort w g p) := by cases w <;> rfl

theorem matching_setPort (w v : Port) (f : Frame) (g : LinePort → LinePort) (p : Part) :
    matching w f (setPort v g p) = matching w f p := by cases v <;> rfl

theorem passQueue_setPort (w v : Port) (g : LinePort → LinePort) (p : Part) :
    passQueue w (setPort v g p).out = passQueue w p.out := by cases v <;> rfl

/-- R117: a complete frame with a good check is counted received and matched. -/
theorem receiveFrame_good {w : Port} {f : Frame} {p : Part} (takes : (portOf w p).rx.takesFrame = true)
    (whole : f.wellFormed = true) :
    receiveFrame w ⟨f, frameCheck f⟩ p = matchFrame w ⟨f, frameCheck f⟩ (setPort w (fun l => { l with
      rx := { l.rx with state := .hunt, runOn := true }
      counts := { l.counts with received := bump l.counts.received } }) p) := by
  simp only [receiveFrame, takes, whole, Bool.and_self, if_true, setPortCounts, setReceiver, setPort_setPort]

theorem receiveFrame_bad {w : Port} {f : Frame} {c : BitVec 16} {p : Part} (takes : (portOf w p).rx.takesFrame = true)
    (whole : f.wellFormed = true) (bad : c ≠ frameCheck f) :
    receiveFrame w ⟨f, c⟩ p = setPort w (fun l => { l with
      rx := { l.rx with state := .hunt, runOn := true }
      counts := { l.counts with checkErrors := bump l.counts.checkErrors } }) p := by
  simp only [receiveFrame, takes, whole, Bool.and_self, if_true, if_neg bad, countCheckError, setPortCounts, setReceiver,
    setPort_setPort]

theorem winningFilter_unmatched {w : Port} {f : Frame} {p : Part} (h : matching w f p = []) : winningFilter w f p = none := by
  simp [winningFilter, h]

theorem matchFrame_unmatched {w : Port} {x : WireFrame} {p : Part} (h : matching w x.frame p = []) :
    matchFrame w x p = forwardFrame w x p := by
  simp [matchFrame, winningFilter_unmatched h, h]

theorem forwardFrame_room {w : Port} {x : WireFrame} {p : Part} (room : (passQueue w p.out).length < 32) :
    forwardFrame w x p =
      setPort w (fun l => { l with counts := { l.counts with forwarded := bump l.counts.forwarded } })
        (setOut (·.appendPass w x) p) := by
  rw [forwardFrame, if_pos (show _ < passCapacity from room), setPortCounts]

theorem forwardFrame_full {w : Port} {x : WireFrame} {p : Part} (full : ¬ (passQueue w p.out).length < 32) :
    forwardFrame w x p =
      setPort w (fun l => { l with counts := { l.counts with dropped := bump l.counts.dropped } })
        (latchEvent 28 (setCounts (fun c => { c with passDrop := bump c.passDrop }) p)) := by
  rw [forwardFrame, if_neg (show ¬ _ < passCapacity from full), setPortCounts]
  rfl

/-- The queue that a frame is forwarded into is none of the port's own. -/
theorem forwardFrame_setPort_room {w : Port} {x : WireFrame} {p : Part} (room : (passQueue w p.out).length < 32)
    (g : LinePort → LinePort) : forwardFrame w x (setPort w g p) = setOut (·.appendPass w x)
      (setPort w (fun l => { g l with counts := { (g l).counts with forwarded := bump (g l).counts.forwarded } }) p) := by
  rw [← passQueue_setPort w w g p] at room
  rw [forwardFrame_room room, setPort_setOut, setPort_setPort]

theorem forwardFrame_setPort_full {w : Port} {x : WireFrame} {p : Part} (full : ¬ (passQueue w p.out).length < 32)
    (g : LinePort → LinePort) : forwardFrame w x (setPort w g p) =
      setPort w (fun l => { l with counts := { l.counts with dropped := bump l.counts.dropped } })
        (latchEvent 28 (setCounts (fun c => { c with passDrop := bump c.passDrop }) (setPort w g p))) := by
  rw [← passQueue_setPort w w g p] at full
  exact forwardFrame_full full

/-- Settles O7. -/
theorem unmatchedFrameIsForwardedOrDropped : Obligations.UnmatchedFrameIsForwardedOrDropped := by
  rintro s w f check ⟨running, takes, whole⟩ hunted
  have taken : exec (.frameReceived w f check) s = .next (s.withPart (receiveFrame w ⟨f, check⟩ s.part)) :=
    run_running _ s running
  have unmatched : matching w f s.part = [] → ∀ g, matching w f (setPort w g s.part) = [] := fun h g => by
    rw [matching_setPort, h]
  refine ⟨fun bad => ?_, fun good none room => ?_, fun good none full => ?_⟩
  · rw [taken, receiveFrame_bad takes whole bad]
  · subst good
    rw [taken, receiveFrame_good takes whole, matchFrame_unmatched (x := ⟨f, _⟩) (unmatched none _), forwardFrame_setPort_room room]
  · subst good
    rw [taken, receiveFrame_good takes whole, matchFrame_unmatched (x := ⟨f, _⟩) (unmatched none _),
      forwardFrame_setPort_full (Nat.not_lt.mpr full)]

/-! ## The transmitters (R124, R144, R145) -/

theorem chooseUp_report {o : Outbound} (eligible : reportEligible o = true)
    (first : o.passUp = [] ∨ o.levels.passUp ≤ o.levels.report) : chooseUp o = some true := by
  rcases first with none | le
  · simp [chooseUp, highest, eligible, none]
  · cases h : o.passUp <;> simp [chooseUp, highest, eligible, h, le]

theorem chooseUp_passUp {o : Outbound} (waits : o.passUp ≠ [])
    (first : reportEligible o = false ∨ o.levels.report < o.levels.passUp) : chooseUp o = some false := by
  rcases first with none | lt
  · simp [chooseUp, highest, none, waits]
  · simp [chooseUp, highest, waits, Nat.not_le.mpr lt]

theorem exec_uplineTransmitStart {s : State} (running : s.part.phase = .running) :
    exec .uplineTransmitStart s = .next (s.withPart (startUpline s.part)) := run_running _ s running

/-- Settles O11. -/
theorem uplineSendsTheReportOrThePassedFrame : Obligations.UplineSendsTheReportOrThePassedFrame := by
  intro s running ready
  rw [exec_uplineTransmitStart running]
  refine ⟨fun f rest waits eligible first => ?_, fun x rest waits first => ?_⟩
  · have chosen : chooseUp s.part.out = some true :=
      chooseUp_report (by rcases eligible with e | e <;> simp [reportEligible, waits, e]) first
    simp [startUpline, ready, chosen, waits, sendOwn, sendOn, setPort, setOut, Outbound.takeReport]
  · have chosen : chooseUp s.part.out = some false := by
      refine chooseUp_passUp (by rw [waits]; exact List.cons_ne_nil _ _) ?_
      rcases first with ⟨polled, mark⟩ | none | lt
      · exact .inl (by simp [reportEligible, polled, mark])
      · exact .inl (by simp [reportEligible, none])
      · exact .inr lt
    simp [startUpline, ready, chosen, waits, sendOn, setPort, setOut]

theorem chooseDown_guard {o : Outbound} (h : o.guard ≠ []) : chooseDown o = some .guard := by
  simp [chooseDown, h]

theorem chooseDown_motion {o : Outbound} (guard : o.guard = []) (waits : o.motion ≠ [])
    (strike : o.strike = [] ∨ o.levels.strike < o.levels.motion)
    (passDn : o.passDn = [] ∨ o.levels.passDn ≤ o.levels.motion) : chooseDown o = some .motion := by
  rcases strike with hs | hs <;> rcases passDn with hd | hd
  · simp [chooseDown, guard, highest, waits, hs, hd]
  · cases e : o.passDn <;> simp [chooseDown, guard, highest, waits, hs, hd, e]
  · simp [chooseDown, guard, highest, waits, Nat.not_le.mpr hs, hd]
  · cases e : o.passDn <;> simp [chooseDown, guard, highest, waits, Nat.not_le.mpr hs, hd, e]

theorem chooseDown_passDn {o : Outbound} (guard : o.guard = []) (waits : o.passDn ≠ [])
    (strike : o.strike = [] ∨ o.levels.strike < o.levels.passDn)
    (motion : o.motion = [] ∨ o.levels.motion < o.levels.passDn) : chooseDown o = some .passDn := by
  rcases strike with hs | hs <;> rcases motion with hm | hm
  · simp [chooseDown, guard, highest, waits, hs, hm]
  · simp [chooseDown, guard, highest, waits, hs, Nat.not_le.mpr hm]
  · simp [chooseDown, guard, highest, waits, Nat.not_le.mpr hs, hm]
  · simp [chooseDown, guard, highest, waits, Nat.not_le.mpr hs, Nat.not_le.mpr hm]

theorem chooseDown_strike {o : Outbound} (guard : o.guard = []) (waits : o.strike ≠ [])
    (motion : o.motion = [] ∨ o.levels.motion ≤ o.levels.strike)
    (passDn : o.passDn = [] ∨ o.levels.passDn ≤ o.levels.strike) : chooseDown o = some .strike := by
  have goes : ∀ {l : Nat} {q : Bool}, (q = false ∨ l ≤ o.levels.strike) → (q = true → l ≤ o.levels.strike) := by
    intro l q h hq
    rcases h with h | h
    · rw [h] at hq; cases hq
    · exact h
  have hm := goes (l := o.levels.motion) (q := !o.motion.isEmpty) (motion.imp (fun h => by simp [h]) id)
  have hd := goes (l := o.levels.passDn) (q := !o.passDn.isEmpty) (passDn.imp (fun h => by simp [h]) id)
  unfold chooseDown
  generalize (!o.motion.isEmpty) = m at *
  generalize (!o.passDn.isEmpty) = d at *
  cases d with
  | false => cases m <;> simp_all [highest]
  | true =>
    cases m with
    | false => simp_all [highest]
    | true =>
      have le := hm rfl
      have le' := hd rfl
      by_cases order : o.levels.passDn ≤ o.levels.motion <;> simp [highest, guard, waits, order, le, le']

theorem chooseDown_none {o : Outbound} (guard : o.guard = []) (strike : o.strike = []) (motion : o.motion = [])
    (passDn : o.passDn = []) : chooseDown o = none := by simp [chooseDown, guard, highest, strike, motion, passDn]

theorem exec_downlineTransmitStart {s : State} (running : s.part.phase = .running) (ready : s.part.down.tx = .ready) :
    exec .downlineTransmitStart s =
      .next (s.withPart (chooseLoop (s.part.out.strike.length + s.part.strikes.queue.length + 1) s.part)) :=
  (run_running _ s running).trans (by rw [startDownline, if_pos ready])

/-- A choice that sends a frame, or finds none to send, ends the transmitter's choosing. -/
theorem chooseLoop_once {p q : Part} (h : chooseOnce p = (false, q)) (n : Nat) : chooseLoop (n + 1) p = q := by
  simp [chooseLoop, h]

/-- Settles O12. -/
theorem guardFramesGoFirstAndFramesAreSpaced : Obligations.GuardFramesGoFirstAndFramesAreSpaced := by
  intro s
  refine ⟨fun f rest running ready waits => ?_, fun running ready guard => ⟨?_, ?_, ?_⟩, fun w x sending => ?_,
    fun w spacing => ?_⟩
  · rw [exec_downlineTransmitStart running ready]
    rw [chooseLoop_once (q := sendOwn .downline f (setOut (fun o => { o with guard := rest }) s.part))
      (by simp [chooseOnce, chooseDown_guard (o := s.part.out) (by simp [waits]), waits])]
    rfl
  · intro m rest waits strike passDn
    rw [exec_downlineTransmitStart running ready]
    rw [chooseLoop_once (q := sendOwn .downline m.frame (setOut (fun o => { o with motion := rest }) s.part))
      (by simp [chooseOnce, chooseDown_motion guard (by simp [waits]) strike passDn, waits])]
    rfl
  · intro x rest waits strike motion
    rw [exec_downlineTransmitStart running ready]
    rw [chooseLoop_once (q := sendOn .downline x (setOut (fun o => { o with passDn := rest }) s.part))
      (by simp [chooseOnce, chooseDown_passDn guard (by simp [waits]) strike motion, waits])]
    rfl
  · intro strike motion passDn
    rw [exec_downlineTransmitStart running ready]
    rw [chooseLoop_once (q := s.part) (by simp [chooseOnce, chooseDown_none guard strike motion passDn])]
    rfl
  · cases w <;> simp_all [exec, execFrameSent, State.run_eq, setPort, portOf, Transmitter.sent, State.withPart]
  · cases w <;> simp_all [exec, execSpacingEnd, State.run_eq, setPort, portOf, Transmitter.spaced, State.withPart]

end Sys2Proof.Machine
end

section
/-! The winning filter (R131 to R137) and the completion of a strike at its transmit start (R66 to R70, R146). -/

namespace Sys2Proof.Machine

/-! ## The winner -/

/-- The least index with a property is the one that a search in index order finds. -/
theorem find?_finRange {n : Nat} {q : Fin n → Bool} {i : Fin n} (h : q i = true) (least : ∀ j, j < i → q j = false) :
    (List.finRange n).find? q = some i := by
  rw [List.find?_eq_some_iff_getElem]
  refine ⟨h, i.val, by simp, by simp, fun j hj => ?_⟩
  have : ((List.finRange n)[j]'(by simp; omega)) = ⟨j, by omega⟩ := by simp
  rw [this, least ⟨j, by omega⟩ hj]
  rfl

/-- A filter of index order starts with the least index that passes. -/
theorem head?_filter_finRange {n : Nat} {q : Fin n → Bool} {i : Fin n} (h : q i = true) (least : ∀ j, j < i → q j = false) :
    ((List.finRange n).filter q).head? = some i := by
  rw [List.head?_filter]
  exact find?_finRange h least

section
variable {w : Port} {f : Frame} {p : Part} {i : FilterIx}

/-- R131: the winner is the lowest matching filter whose consumer can accept. -/
theorem winningFilter_eq
    (fits : (p.filter.filters.read i).matchesFrame p.filter.masks p.settings.ownAddress w f = true)
    (takes : canAccept (p.filter.filters.read i).action p.filter = true)
    (least : ∀ j, j < i → (p.filter.filters.read j).matchesFrame p.filter.masks p.settings.ownAddress w f = true →
      canAccept (p.filter.filters.read j).action p.filter = false) : winningFilter w f p = some i := by
  rw [winningFilter, matching, List.find?_filter]
  refine find?_finRange (by simp [fits, takes]) fun j hj => ?_
  by_cases e : (p.filter.filters.read j).matchesFrame p.filter.masks p.settings.ownAddress w f = true
  · simp [e, least j hj e]
  · simp [e]

theorem winningFilter_none
    (none : ∀ j, (p.filter.filters.read j).matchesFrame p.filter.masks p.settings.ownAddress w f = true →
      canAccept (p.filter.filters.read j).action p.filter = false) : winningFilter w f p = .none := by
  rw [winningFilter, List.find?_eq_none]
  intro j hj
  rw [none j (List.mem_filter.mp hj).2]
  exact Bool.false_ne_true

theorem matchFrame_won {x : WireFrame} (won : winningFilter w x.frame p = some i) :
    matchFrame w x p =
      if (p.filter.filters.read i).forward then forwardFrame w x (deliver i x.frame p)
      else countConsumed w (deliver i x.frame p) := by
  simp only [matchFrame, won]

theorem matchFrame_lost {x : WireFrame} (lost : winningFilter w x.frame p = none)
    (lowest : (matching w x.frame p).head? = some i) :
    matchFrame w x p =
      if (p.filter.filters.read i).forward then forwardFrame w x (overflowIntake i p)
      else countDropped w (overflowIntake i p) := by
  simp only [matchFrame, lost, lowest]

/-! ## Its action -/

theorem deliver_intake (h : (p.filter.filters.read i).action ≠ .poll) :
    deliver i f p = setFilterUnit (·.changeQueue (p.filter.filters.read i).action fun q =>
      { q with entries := q.entries ++ [{ frame := f, stamp := p.lineTime, hit := i }] }) p := by
  unfold deliver
  cases e : (p.filter.filters.read i).action with
  | poll => exact (h e).elim
  | _ => rfl

theorem deliver_poll (h : (p.filter.filters.read i).action = .poll) : deliver i f p = answerPoll f p := by
  simp only [deliver, h]

theorem answerPoll_marks (mode : p.out.mode = .polled) (waits : p.out.report ≠ []) :
    answerPoll f p = setOut (fun o => { o with mark := o.report.length }) p := by
  simp [answerPoll, mode, waits]

theorem answerPoll_quiet (mode : p.out.mode = .polled) (empty : p.out.report = []) :
    answerPoll f p = setOut (fun o => { o with report := [quietFrame f p], mark := 1 }) p := by
  simp [answerPoll, mode, empty, appendReport, reportCapacity, setOut]

theorem answerPoll_free (mode : p.out.mode = .free) (room : p.out.report.length < 16) :
    answerPoll f p = setOut (fun o => { o with report := o.report ++ [quietFrame f p] }) p := by
  simp [answerPoll, mode, appendReport, reportCapacity, room, setOut]

theorem answerPoll_full (mode : p.out.mode = .free) (full : 16 ≤ p.out.report.length) :
    answerPoll f p = setCounts (fun c => { c with replyDrop := bump c.replyDrop }) p := by
  simp [answerPoll, mode, appendReport, reportCapacity, Nat.not_lt.mpr full, setCounts]

end

/-- Settles O8: the winner is `winningFilter_eq` and its action one of the lemmas above; the receiver's change and the
count touch neither the filters nor the queues. -/
theorem winningFilterDelivers : Obligations.WinningFilterDelivers := by
  rintro s w f i ⟨running, arrives, whole⟩ fits x takes counts received forwarded taken quiet
  have exec_eq : exec (.frameReceived w f (frameCheck f)) s = .next (s.withPart (matchFrame w ⟨f, frameCheck f⟩ received)) :=
    (run_running _ s running).trans (by rw [receiveFrame_good arrives whole])
  have filter : received.filter = s.part.filter := setPort_filter _ _ _
  have settings : received.settings = s.part.settings := setPort_settings _ _ _
  have out : received.out = s.part.out := setPort_out _ _ _
  have time : received.lineTime = s.part.lineTime := setPort_lineTime _ _ _
  have quiet_eq : quietFrame f received = quiet := by rw [quietFrame, settings]
  refine ⟨fun fit take least => ?_, fun fit least full => ?_⟩
  · have won : winningFilter w f received = some i := by
      refine winningFilter_eq ?_ ?_ fun j hj => ?_ <;> simp only [filter, settings]
      · exact fit
      · exact take
      · exact least j hj
    have delivers : ∀ q, deliver i f received = q → taken q := by
      rintro _ rfl
      refine exec_eq.trans ?_
      rw [matchFrame_won (x := ⟨f, frameCheck f⟩) won, filter]
      rfl
    have action : (received.filter.filters.read i).action = x.action := by rw [filter]
    refine ⟨fun intake => ?_, fun poll mode waits => ?_, fun poll mode empty => ?_, fun poll mode room => ?_,
      fun poll mode full => ?_⟩ <;> apply delivers
    · rw [deliver_intake (by rw [action]; exact intake), action, time]
    · rw [deliver_poll (by rw [action]; exact poll), answerPoll_marks (by rw [out]; exact mode) (by rw [out]; exact waits)]
    · rw [deliver_poll (by rw [action]; exact poll), answerPoll_quiet (by rw [out]; exact mode) (by rw [out]; exact empty),
        quiet_eq]
    · rw [deliver_poll (by rw [action]; exact poll), answerPoll_free (by rw [out]; exact mode) (by rw [out]; exact room),
        quiet_eq]
    · rw [deliver_poll (by rw [action]; exact poll), answerPoll_full (by rw [out]; exact mode) (by rw [out]; exact full)]
  · intro lost
    have nobody : winningFilter w f received = none := winningFilter_none fun j => by
      simp only [filter, settings]
      exact full j
    have lowest : (matching w f received).head? = some i := by
      refine head?_filter_finRange ?_ fun j hj => ?_ <;> simp only [filter, settings]
      · exact fit
      · exact least j hj
    rw [exec_eq, matchFrame_lost (x := ⟨f, frameCheck f⟩) nobody lowest, overflowIntake, filter]
    rfl

end Sys2Proof.Machine
end

section
/-! The completion of a strike at its transmit start (R66 to R70, R146). -/

namespace Sys2Proof.Machine

/-! ## What a cause counts -/

/-- Of the counts at most that of lost replies has changed. -/
def SameButReplyDrop (p q : Part) : Prop := q.counts = { p.counts with replyDrop := q.counts.replyDrop }

theorem SameButReplyDrop.trans {p q r : Part} (h : SameButReplyDrop p q) (k : SameButReplyDrop q r) : SameButReplyDrop p r := by
  unfold SameButReplyDrop at *
  rw [k, h]

theorem appendReport_counts (f : Frame) (p : Part) : SameButReplyDrop p (appendReport f p) := by
  unfold appendReport
  split <;> rfl

theorem latchEvent_counts (k : Nat) (p : Part) : SameButReplyDrop p (latchEvent k p) := by
  unfold latchEvent
  split
  · rfl
  · dsimp only
    split
    · exact appendReport_counts _ _
    · rfl

theorem readWord_counts (rd : Reader) (a : Nat) (p : Part) : SameButReplyDrop p (readWord rd a p).2 := by
  unfold readWord
  split
  · rfl
  · dsimp only
    split
    · rfl
    · unfold offerCorrected
      split
      · exact latchEvent_counts _ _
      · rfl
      · rfl
    · unfold offerUncorrectable
      split <;> exact latchEvent_counts _ _

theorem readEach_counts (rd : Reader) (as : List Nat) (p : Part) : SameButReplyDrop p (readEach rd as p).2 := by
  induction as generalizing p with
  | nil => rfl
  | cons a rest ih => exact (readWord_counts rd a p).trans (ih _)

/-- R57: an uncorrectable bell record counts one record error. -/
theorem readBell_recordError {b : BellIx} {o : List Nat} {p : Part} (h : (readBell b o p).1 = none) :
    (readBell b o p).2.counts.recordError = bump p.counts.recordError := by
  have counts : SameButReplyDrop p (readRecord .record (bellBase b) o p).2 := readEach_counts _ _ _
  unfold readBell at *
  dsimp only at *
  split at h
  · cases h
  · simp only [setCounts, congrArg Counts.recordError counts]

/-! ## Completion -/

theorem bellRecord_pulseMin (w : Nat → Word) : 1 ≤ (bellRecord w).pulseMin := by
  simp only [bellRecord, clamp]
  omega

theorem readBell_pulseMin {b : BellIx} {o : List Nat} {p : Part} {rec : BellRecord} (h : (readBell b o p).1 = some rec) :
    1 ≤ rec.pulseMin := by
  unfold readBell at h
  dsimp only at h
  split at h
  · cases h; exact bellRecord_pulseMin _
  · cases h

/-- R69: at a heat at or above the limit no width is left. -/
theorem degradedWidth_enough {rec : BellRecord} (h : 1 ≤ rec.pulseMin) (heat : Nat) :
    rec.pulseMin ≤ rec.degradedWidth heat ↔ heat < rec.heatLimit ∧ rec.pulseMin ≤ (rec.heatLimit - heat) / rec.unitHeat := by
  unfold BellRecord.degradedWidth
  split
  next room => simp [room]
  next hot => simp [hot]; omega

theorem completeStrike_queues (e : StrikeFrame) (p : Part) :
    (completeStrike e p).2.out.strike = p.out.strike ∧ (completeStrike e p).2.strikes.queue = p.strikes.queue := by
  have noted : ∀ {q : Part}, Noted p q → q.out.strike = p.out.strike ∧ q.strikes.queue = p.strikes.queue := fun h =>
    ⟨by rw [h.out], by rw [h.strikes]⟩
  have read := readBell_noted e.bell bellCompletionWords p
  have sent : ∀ (rec : BellRecord) (n : Nat) (q : Part), (sendStrike e rec n q).2.out.strike = q.out.strike ∧
      (sendStrike e rec n q).2.strikes.queue = q.strikes.queue := fun _ _ _ => ⟨rfl, rfl⟩
  unfold completeStrike
  dsimp only
  split
  · exact noted read
  · split
    · exact noted ((read.trans (setCounts_noted _ _)).trans (latchEvent_noted _ _))
    · split
      · exact noted (read.trans (setCounts_noted (fun c => { c with noBell := bump c.noBell }) _))
      · unfold chargeStrike
        dsimp only
        split
        · rw [(sent _ _ _).1, (sent _ _ _).2]
          exact noted read
        · split
          · rw [(sent _ _ _).1, (sent _ _ _).2]
            exact noted (read.trans (setCounts_noted (fun c => { c with degraded := bump c.degraded }) _))
          · exact noted ((read.trans (setCounts_noted _ _)).trans (latchEvent_noted _ _))

theorem releaseDue_length (p : Part) : (releaseDue p).out.strike.length + (releaseDue p).strikes.queue.length =
    p.out.strike.length + p.strikes.queue.length := by
  obtain ⟨gone, rest, bells, queue, h⟩ := releaseDue_frame p
  rw [h, queue]
  simp only [List.length_append, List.length_map]
  omega

/-- R146: a completion that sends nothing is followed at once by another choice. -/
theorem exec_downlineTransmitStart_again {s : State} {e : StrikeFrame} {rest : List StrikeFrame}
    (running : s.part.phase = .running) (ready : s.part.down.tx = .ready) (waits : s.part.out.strike = e :: rest)
    (chosen : chooseDown s.part.out = some .strike)
    (nothing : (completeStrike e (setOut (fun o => { o with strike := rest }) s.part)).1 = none) :
    exec .downlineTransmitStart s = exec .downlineTransmitStart
      (s.withPart (releaseDue (completeStrike e (setOut (fun o => { o with strike := rest }) s.part)).2)) := by
  have carried := (completeStrike_carried e (setOut (fun o => { o with strike := rest }) s.part)).trans (releaseDue_carried _)
  have length := releaseDue_length (completeStrike e (setOut (fun o => { o with strike := rest }) s.part)).2
  obtain ⟨strike, queue⟩ := completeStrike_queues e (setOut (fun o => { o with strike := rest }) s.part)
  have once : chooseOnce s.part =
      (true, releaseDue (completeStrike e (setOut (fun o => { o with strike := rest }) s.part)).2) := by
    simp only [chooseOnce, chosen, waits, startHammer, nothing, Bool.not_false]
  rw [strike, queue] at length
  rw [exec_downlineTransmitStart running ready]
  generalize releaseDue (completeStrike e (setOut (fun o => { o with strike := rest }) s.part)).2 = q at *
  rw [exec_downlineTransmitStart (s := s.withPart q) (carried.phase.trans running) (by rw [withPart_part, carried.down]; exact ready)]
  simp only [withPart_part, length, setOut_out, setOut_strikes, waits, List.length_cons]
  rw [show rest.length + 1 + s.part.strikes.queue.length + 1 = (rest.length + s.part.strikes.queue.length + 1) + 1 by omega]
  simp only [chooseLoop, once, if_true]
  rfl

/-- R144, R146: a completion that sends a frame ends the choosing; the place it freed may release strikes. -/
theorem exec_downlineTransmitStart_sent {s : State} {e : StrikeFrame} {rest : List StrikeFrame} {f : Frame} {q : Part}
    (running : s.part.phase = .running) (ready : s.part.down.tx = .ready) (waits : s.part.out.strike = e :: rest)
    (chosen : chooseDown s.part.out = some .strike)
    (sent : completeStrike e (setOut (fun o => { o with strike := rest }) s.part) = (some f, q)) :
    exec .downlineTransmitStart s = .next (s.withPart (releaseDue (sendOwn .downline f q))) := by
  rw [exec_downlineTransmitStart running ready, chooseLoop_once (q := releaseDue (sendOwn .downline f q))]
  simp only [chooseOnce, chosen, waits, startHammer, sent, Bool.not_true]

theorem sendStrike_sent {e : StrikeFrame} {rec : BellRecord} {width : Nat} {p : Part} {f : Frame}
    (frame : hammerFrame e rec width (drawByte p).1 (drawByte p).2 = f) : sendStrike e rec width p =
      (some f, { setBell e.bell (fun b => { b with heat := b.heat + width * rec.unitHeat }) p with
        freeUsed := p.freeUsed + 1 }) := by
  rw [← frame]
  rfl

theorem sendOwn_sent (f : Frame) (b : BellIx) (g : BellState → BellState) (n : Nat) (p : Part) :
    sendOwn .downline f { setBell b g p with freeUsed := n } = { setBell b g p with
      down := { p.down with tx := .sending ⟨f, frameCheck f⟩ }, freeUsed := n } := rfl

theorem completeStrike_found {e : StrikeFrame} {p : Part} {rec : BellRecord}
    (found : (readBell e.bell bellCompletionWords p).1 = some rec) : completeStrike e p =
      if e.fire + (p.settings.lateLimit : Int) < (p.lineTime : Int) then
        (none, latchEvent Source.strikeDropped (setCounts (fun c => { c with late := bump c.late })
          (readBell e.bell bellCompletionWords p).2))
      else if rec.node = 0 then
        (none, setCounts (fun c => { c with noBell := bump c.noBell }) (readBell e.bell bellCompletionWords p).2)
      else chargeStrike e rec (readBell e.bell bellCompletionWords p).2 := by
  simp only [completeStrike, found]

/-- R69: the three outcomes of the heat limit. -/
theorem chargeStrike_eq (e : StrikeFrame) (rec : BellRecord) (p : Part) (h : 1 ≤ rec.pulseMin) :
    let heat := (p.strikes.bells.read e.bell).heat
    let full := rec.width e.velocity
    let less := (rec.heatLimit - heat) / rec.unitHeat
    (heat + full * rec.unitHeat ≤ rec.heatLimit → chargeStrike e rec p = sendStrike e rec full p) ∧
    (¬ heat + full * rec.unitHeat ≤ rec.heatLimit → heat < rec.heatLimit ∧ rec.pulseMin ≤ less →
      chargeStrike e rec p = sendStrike e rec less (setCounts (fun c => { c with degraded := bump c.degraded }) p)) ∧
    (¬ heat + full * rec.unitHeat ≤ rec.heatLimit → ¬ (heat < rec.heatLimit ∧ rec.pulseMin ≤ less) →
      chargeStrike e rec p = (none, latchEvent Source.strikeDropped (setCounts (fun c => { c with hot := bump c.hot }) p))) := by
  intro heat full less
  refine ⟨fun fits => ?_, fun beyond enough => ?_, fun beyond short => ?_⟩
  · exact if_pos fits
  · rw [chargeStrike, if_neg beyond, if_pos ((degradedWidth_enough h heat).mpr enough)]
    rw [show rec.degradedWidth heat = less from if_pos enough.1]
  · exact (if_neg beyond).trans (if_neg fun e => short ((degradedWidth_enough h heat).mp e))

/-- Settles O13. -/
theorem hammerIsCompletedAtItsTransmitStart : Obligations.HammerIsCompletedAtItsTransmitStart := by
  intro s e rest p running ready guard waits motion passDn q
  have chosen := chooseDown_strike guard (by rw [waits]; exact List.cons_ne_nil _ _) motion passDn
  have read : Noted p q := readBell_noted e.bell [0, 1, 2] p
  refine ⟨exec_downlineTransmitStart_again running ready waits chosen, fun lost => ⟨?_, readBell_recordError lost, read.strikes⟩,
    fun rec found => ?_⟩
  · simp [completeStrike, bellCompletionWords, lost, q]
  intro late heat full less fits enough width f counted
  have completes := completeStrike_found found
  have bells : q.strikes.bells = s.part.strikes.bells := by rw [read.strikes]; rfl
  obtain ⟨atFull, atLess, atNone⟩ := chargeStrike_eq e rec q (readBell_pulseMin found)
  rw [bells] at atFull atLess atNone
  refine ⟨fun isLate => ?_, fun inTime unfitted => ?_, fun inTime fitted beyond short => ?_, fun inTime fitted goes => ?_⟩
  · exact completes.trans (if_pos (of_decide_eq_true isLate))
  · exact (completes.trans (if_neg (of_decide_eq_false inTime))).trans (if_pos unfitted)
  · exact ((completes.trans (if_neg (of_decide_eq_false inTime))).trans (if_neg fitted)).trans
      (atNone (of_decide_eq_false beyond) (of_decide_eq_false short))
  · have charges : completeStrike e p = chargeStrike e rec q :=
      (completes.trans (if_neg (of_decide_eq_false inTime))).trans (if_neg fitted)
    have sent : chargeStrike e rec q = sendStrike e rec width counted := by
      by_cases fit : heat + full * rec.unitHeat ≤ rec.heatLimit
      · have pass : fits = true := decide_eq_true fit
        simp only [width, counted, pass, if_true]
        exact atFull fit
      · have beyond : fits = false := decide_eq_false fit
        simp only [width, counted, beyond]
        exact atLess fit (of_decide_eq_true (goes.resolve_left (by simp [beyond])))
    have noted : Noted p counted := by
      simp only [counted]
      split
      · exact read
      · exact read.trans (setCounts_noted _ _)
    have frame : hammerFrame e rec width (drawByte counted).1 (drawByte counted).2 = f := by
      simp only [hammerFrame, drawByte, noted.settings, noted.lineTime, noted.freeUsed, f, strikeDelay]
      rfl
    rw [exec_downlineTransmitStart_sent running ready waits chosen ((charges.trans sent).trans (sendStrike_sent frame)),
      sendOwn_sent, noted.down, noted.freeUsed]
    rfl

end Sys2Proof.Machine
end

section
/-! The cue timers (R17 to R20) and the held shows (R34). -/

namespace Sys2Proof.Machine

/-! ## Counting and overflowing (R17, R18) -/

theorem setTimer_congr {t : TimerIx} {f g : CueTimer → CueTimer} {p : Part}
    (h : f (p.cal.timers.read t) = g (p.cal.timers.read t)) : setTimer t f p = setTimer t g p := by
  have : p.cal.timers.update t f = p.cal.timers.update t g := by
    refine Bank.ext_read _ _ fun j => ?_
    by_cases e : j = t
    · subst e; simp only [Bank.read_update_self, h]
    · simp only [Bank.read_update_ne _ _ _ _ e]
  simp only [setTimer, this]

theorem setTimer_fixed {t : TimerIx} {f : CueTimer → CueTimer} {p : Part} (h : f (p.cal.timers.read t) = p.cal.timers.read t) :
    setTimer t f p = p := by
  simp only [setTimer, Bank.update_of_fixed h]

@[simp] theorem setTimer_own (t : TimerIx) (f : CueTimer → CueTimer) (p : Part) :
    (setTimer t f p).cal.timers.read t = f (p.cal.timers.read t) := Bank.read_update_self _ _ _

/-- R18: the timer `t` past its top: its count is its reload value and its source has met a cause. -/
def pastTop (t : TimerIx) (p : Part) : Part := latchEvent (8 + t.val) (setTimer t (fun x => { x with count := x.reload }) p)

theorem pastTop_cal (t : TimerIx) (p : Part) : (pastTop t p).cal = (setTimer t (fun x => { x with count := x.reload }) p).cal :=
  (latchEvent_noted _ _).cal

/-- R18: the start request of timer bound `b`. -/
theorem timerRequest_pastTop (b : SlotIx × ShowIx) (t : TimerIx) (p : Part) : timerRequest b (pastTop t p) = {
    slot := b.1, showIx := b.2, source := .timer, rank := 0, trigger := p.lineTime
    hour := if p.cal.clockState = .set then some p.cal.clock.hour else none } := by
  have time : (pastTop t p).lineTime = p.lineTime := (latchEvent_noted _ _).lineTime
  rw [timerRequest, time, clockHour, pastTop_cal]
  rfl

theorem overflowTimer_free {t : TimerIx} {p : Part} (h : (p.cal.timers.read t).binding = none) :
    overflowTimer t p = setTimer t (fun x => if x.stopAtOverflow then { x with run := false } else x) (pastTop t p) := by
  simp only [overflowTimer, h]
  rfl

theorem overflowTimer_bound {t : TimerIx} {p : Part} {b : SlotIx × ShowIx} (h : (p.cal.timers.read t).binding = some b) :
    overflowTimer t p = setTimer t (fun x => if x.stopAtOverflow then { x with run := false } else x)
      (requestStart (timerRequest b (pastTop t p)) (pastTop t p)) := by
  simp only [overflowTimer, h]
  rfl

theorem requestStart_stopped {r : StartRequest} {p : Part} (h : allStopAsserted p = true) :
    requestStart r p = latchEvent 24 p := by
  rw [requestStart, if_pos h]
  rfl

/-- R18: what the stop flag does to a timer that has overflowed, told by the timer before. -/
theorem stopAtOverflow_run {t : TimerIx} {p q : Part} (h : q.cal.timers.read t = { p.cal.timers.read t with count := (p.cal.timers.read t).reload })
    (run : (p.cal.timers.read t).run = true) :
    setTimer t (fun x => if x.stopAtOverflow then { x with run := false } else x) q =
      setTimer t (fun y => { y with run := !(p.cal.timers.read t).stopAtOverflow }) q := by
  refine setTimer_congr ?_
  rw [h]
  cases e : (p.cal.timers.read t).stopAtOverflow <;> simp [e, run]

/-- Settles O19. -/
theorem cueTimerCountsAndOverflows : Obligations.CueTimerCountsAndOverflows := by
  intro s t running x past stopped
  have counts : exec (.cueTimerCount t) s = .next (s.withPart (setTimer t CueTimer.counted s.part)) := run_running _ s running
  have tops : exec (.cueTimerOverflow t) s = .next (s.withPart (countPastTop t s.part)) := run_running _ s running
  have own : (pastTop t s.part).cal.timers.read t = { x with count := x.reload } := by rw [pastTop_cal, setTimer_own]
  have atTop : x.run = true → x.count = 16777215 → countPastTop t s.part = overflowTimer t s.part := fun run top =>
    if_pos (by rw [Bool.and_eq_true]; exact ⟨run, decide_eq_true top⟩)
  refine ⟨fun run low => ?_, fun still => ⟨?_, ?_⟩, fun run top free => ?_, fun b run top bound => ?_⟩
  · have counted : CueTimer.counted x = { x with count := x.count + 1 } :=
      if_pos (by rw [Bool.and_eq_true]; exact ⟨run, decide_eq_true low⟩)
    rw [counts, setTimer_congr (f := CueTimer.counted) (g := fun y => { y with count := y.count + 1 }) counted]
  · have fixed : CueTimer.counted x = x := if_neg (by simp [still])
    rw [counts, setTimer_fixed fixed]
    rfl
  · rw [tops, countPastTop]
    simp [show (s.part.cal.timers.read t).run = false from still, State.withPart]
  · rw [tops, atTop run top, overflowTimer_free free,
      stopAtOverflow_run own run]
    rfl
  · intro r
    refine ⟨?_, fun stop => requestStart_stopped ?_⟩
    · rw [tops, atTop run top, overflowTimer_bound bound, timerRequest_pastTop,
        stopAtOverflow_run (p := s.part) (by rw [(requestStart_grounded _ _).cal]; exact own) run]
      rfl
    · rw [← stop, allStopAsserted, (latchEvent_noted _ _).guard]
      rfl

/-! ## TIMER CONTROL (R19) -/

section
variable {s : State} {e : IntakeEntry} {rest : List IntakeEntry}

/-- R19: an action that is not listed is refused by any of the six steps, with the timer's data. -/
theorem onTimerControl_unlisted {a : Nat} (listed : a ≤ 5) (body : IntakeEntry → TimerIx → Part → Part) {t : TimerIx}
    (h : Waiting .timerControl e rest s) (ht : e.frame.arg 1 = t.val) (ha : 5 < e.frame.arg 2) :
    s.run (whenRunning (onTimerControl a body)) = .next (s.withPart (answerTimer e t .range (setManagement rest s.part))) := by
  obtain ⟨running, front, request, length⟩ := h
  have other : e.frame.arg 2 ≠ a := by omega
  rw [run_running _ _ running, onTimerControl, takeManagement_head _ _ _ e rest front (by simp [request, ha]), if_pos length, ht]
  simp only [index?_val, if_neg other]

/-- R19: a timer above 7 is refused without data. -/
theorem onTimerControl_nowhere {a : Nat} (body : IntakeEntry → TimerIx → Part → Part) (h : Waiting .timerControl e rest s)
    (ht : 8 ≤ e.frame.arg 1) (ha : e.frame.arg 2 = a ∨ 5 < e.frame.arg 2) :
    s.run (whenRunning (onTimerControl a body)) = .next (s.withPart (answer e .range [] (setManagement rest s.part))) := by
  obtain ⟨running, front, request, length⟩ := h
  have takes : (e.frame.request = some .timerControl &&
      (e.frame.payload.length ≠ 6 || e.frame.arg 2 = a || 5 < e.frame.arg 2)) = true := by
    rcases ha with ha | ha <;> simp [request, ha]
  rw [run_running _ _ running, onTimerControl, takeManagement_head _ _ _ e rest front takes, if_pos length]
  simp only [index?_beyond ht]

end

/-- R18: a stopped timer that overflows stays stopped, whatever its stop flag. -/
theorem stopAtOverflow_stopped {t : TimerIx} {q : Part} (h : (q.cal.timers.read t).run = false) :
    setTimer t (fun x => if x.stopAtOverflow then { x with run := false } else x) q = q := by
  refine setTimer_fixed ?_
  split
  · rw [← h]
  · rfl

/-- R18, R19: a step of a stopped timer at the top. -/
theorem timerStepRequest_top {e : IntakeEntry} {t : TimerIx} {p : Part} (still : (p.cal.timers.read t).run = false)
    (top : (p.cal.timers.read t).count = 16777215) :
    timerStepRequest e t p = answerTimer e t .done (overflowTimer t p) := by
  simp [timerStepRequest, still, top, timerTop]

/-- Settles O20. -/
theorem timerControlChangesOneField : Obligations.TimerControlChangesOneField := by
  intro s e rest waiting p steps
  have length : e.frame.payload.length = 6 := of_decide_eq_true waiting.2.2.2
  refine ⟨fun beyond x hx ha => ?_, fun t ht => ?_⟩
  · simp only [steps, List.mem_cons, List.not_mem_nil, or_false] at hx
    rcases hx with rfl | rfl | rfl | rfl | rfl | rfl <;> exact onTimerControl_nowhere _ waiting beyond ha
  intro told gives past
  have told_eq : ∀ r q, answerTimer e t r q = told r q := by
    intro r q
    simp only [answerTimer, timerData, told]
    cases (q.cal.timers.read t).binding <;> rfl
  have given : ∀ {c : Instr} {a : Nat} {body : IntakeEntry → TimerIx → Part → Part} {r : Result} {f : CueTimer → CueTimer},
      exec c s = s.run (whenRunning (onTimerControl a body)) → e.frame.arg 2 = a →
      body e t p = answerTimer e t r (setTimer t f p) → gives c r f := by
    intro c a body r f step ha h
    refine (step.trans (onTimerControl_waiting a body s e rest t waiting ht ha)).trans ?_
    rw [← told_eq, ← h]
  have same : setTimer t (fun x => x) p = p := setTimer_fixed rfl
  have stays : (pastTop t p).cal.timers.read t = { p.cal.timers.read t with count := (p.cal.timers.read t).reload } := by
    rw [pastTop_cal, setTimer_own]
  refine ⟨fun unlisted x hx => ?_, fun ha => ?_, fun ha => ?_, fun ha run => ?_, fun ha still low => ?_,
    fun ha still top => ⟨fun free => ?_, fun b bound => ?_⟩, fun ha => ?_, fun ha => ?_, fun ha none => ?_,
    fun ha i k hi hk => ?_, fun ha some refused => ?_⟩
  · have refused : ∀ {a : Nat} (body : IntakeEntry → TimerIx → Part → Part), a ≤ 5 →
        s.run (whenRunning (onTimerControl a body)) = .next (s.withPart (told .range (setTimer t (fun x => x) p))) := by
      intro a body listed
      rw [onTimerControl_unlisted listed body waiting ht unlisted, told_eq, same]
    simp only [steps, List.mem_cons, List.not_mem_nil, or_false] at hx
    rcases hx with rfl | rfl | rfl | rfl | rfl | rfl <;> exact refused _ (by decide)
  · exact given rfl ha rfl
  · exact given rfl ha rfl
  · exact given (body := timerStepRequest) rfl ha (by
      rw [same]
      exact if_pos run)
  · exact given (body := timerStepRequest) rfl ha (by
      have room : (p.cal.timers.read t).count ≠ timerTop := Nat.ne_of_lt low
      simp only [timerStepRequest]
      rw [if_neg (by rw [show (p.cal.timers.read t).run = false from still]; exact Bool.false_ne_true), if_neg room])
  · refine (onTimerControl_waiting 2 timerStepRequest s e rest t waiting ht ha).trans ?_
    change Host.Outcome.next (s.withPart (timerStepRequest e t p)) = _
    rw [timerStepRequest_top (p := p) still top, overflowTimer_free (p := p) free,
      stopAtOverflow_stopped (by rw [stays]; exact still), told_eq]
    rfl
  · intro r
    refine (onTimerControl_waiting 2 timerStepRequest s e rest t waiting ht ha).trans ?_
    change Host.Outcome.next (s.withPart (timerStepRequest e t p)) = _
    rw [timerStepRequest_top (p := p) still top, overflowTimer_bound (p := p) bound, timerRequest_pastTop,
      stopAtOverflow_stopped (by rw [(requestStart_grounded _ _).cal, stays]; exact still),
      told_eq]
    rfl
  · exact given rfl ha rfl
  · exact given (body := timerSetReloadRequest) rfl ha (by rw [timerSetReloadRequest, number_three _ _ (by omega)])
  · exact given (body := timerSetBindingRequest) rfl ha (if_pos none)
  · exact given (body := timerSetBindingRequest) rfl ha (by
      have slot : e.frame.arg 3 ≠ 255 := by omega
      rw [timerSetBindingRequest, if_neg slot, hi, hk]
      simp only [index?_val])
  · exact given (body := timerSetBindingRequest) rfl ha (by
      rw [same, timerSetBindingRequest, if_neg some]
      rcases refused with slot | show_
      · simp only [index?_beyond slot]
      · simp only [index?_beyond show_]
        cases index? 3 (e.frame.arg 3) <;> rfl)

end Sys2Proof.Machine
end

section
/-! Held shows (R34), the guard unit's samples and changes (R101 to R106), the reads of the events and of the error
record (R112, R157, R158). -/

namespace Sys2Proof.Machine

/-! ## SHOW HOLD (R34) -/

/-- R34: a held slot's time does not move. -/
theorem Slot.time_held {r : Slot} {t : Nat} (state : r.state = .held) (hold : r.hold = some t) (now : Nat) :
    r.time now = t - r.origin := by
  rw [Slot.time, state, hold]
  rfl

theorem endDue_of_held {i : SlotIx} {p : Part} (h : (p.slots.read i).state = .held) : endDue i p = false := by
  simp [endDue, h]

theorem stepDue_of_held {i : SlotIx} {p : Part} (h : (p.slots.read i).state = .held) : stepDue i p = false := by
  simp [stepDue, h]

/-- Settles O22. -/
theorem showHoldFreezesTheSlot : Obligations.ShowHoldFreezesTheSlot := by
  intro s e rest waiting p
  have asked : exec .showHold s = .next (s.withPart (showHoldRequest e p)) := onRequest_waiting .showHold showHoldRequest s e rest waiting
  refine ⟨fun beyond => ?_, fun i hi => ⟨fun other => ?_, fun runs => ?_⟩⟩
  · rw [asked, showHoldRequest, index?_beyond beyond]
  · rw [asked, showHoldRequest, hi, index?_val]
    exact congrArg (fun q => Host.Outcome.next (s.withPart q)) (if_neg other)
  · intro q
    have now : (q.slots.read i) = { s.part.slots.read i with state := .held, hold := some s.part.lineTime } :=
      Bank.read_update_self _ _ _
    refine ⟨?_, rfl, rfl, fun t => ⟨?_, endDue_of_held ?_, stepDue_of_held ?_⟩⟩
    · rw [asked, showHoldRequest, hi, index?_val]
      exact congrArg (fun q => Host.Outcome.next (s.withPart q)) (if_pos runs)
    · rw [Slot.time_held (t := s.part.lineTime) (by rw [now]) (by rw [now]), now, Slot.time, runs]
    · exact congrArg Slot.state now
    · exact congrArg Slot.state now

/-! ## Samples (R101, R102) -/

/-- Settles O37. -/
theorem guardSampleCountsTheRuns : Obligations.GuardSampleCountsTheRuns := by
  intro s levels running
  refine ⟨Vector.ofFn fun n : LineIx =>
    (s.part.guard.lines.read n).sampled s.part.guard.awaitingSample (member levels n.val), ?_, fun n => ?_⟩
  · have sampled : exec (.guardInputSample levels) s = .next (s.withPart (sampleInputs levels s.part)) := run_running _ s running
    rw [sampled, sampleInputs, setLines_eq fun n l => l.sampled s.part.guard.awaitingSample (member levels n.val)]
  · rw [Bank.read_ofFn]
    rfl

/-! ## Changes of a line (R101, R104, R106) -/

theorem setLine_setLine (n : LineIx) (f g : GuardLine → GuardLine) (p : Part) :
    setLine n g (setLine n f p) = setLine n (fun x => g (f x)) p := by
  have : (p.guard.lines.update n f).update n g = p.guard.lines.update n fun x => g (f x) := by
    refine Bank.ext_read _ _ fun j => ?_
    by_cases h : j = n
    · subst h; simp only [Bank.read_update_self]
    · simp only [Bank.read_update_ne _ _ _ _ h]
  simp only [setLine, this]

theorem setLine_congr {n : LineIx} {f g : GuardLine → GuardLine} {p : Part}
    (h : f (p.guard.lines.read n) = g (p.guard.lines.read n)) : setLine n f p = setLine n g p := by
  have : p.guard.lines.update n f = p.guard.lines.update n g := by
    refine Bank.ext_read _ _ fun j => ?_
    by_cases e : j = n
    · subst e; simp only [Bank.read_update_self, h]
    · simp only [Bank.read_update_ne _ _ _ _ e]
  simp only [setLine, this]

theorem setLine_own (n : LineIx) (f : GuardLine → GuardLine) (p : Part) :
    (setLine n f p).guard.lines.read n = f (p.guard.lines.read n) := Bank.read_update_self _ _ _

theorem lineHeld_iff (n : LineIx) (p : Part) :
    lineHeld n p = true ↔ ∃ k : FigIx, (p.figures.read k).hold.getLsbD n.val = true := by
  simp only [lineHeld, List.any_eq_true, Bank.mem_toList]
  constructor
  · rintro ⟨_, ⟨k, rfl⟩, held⟩
    exact ⟨k, held⟩
  · rintro ⟨k, held⟩
    exact ⟨_, ⟨k, rfl⟩, held⟩

theorem GuardLine.changing_iff (l : GuardLine) : l.changing = true ↔ l.run = 10 := decide_eq_true_iff

/-- R101: a change of a line that is not asserted makes it so. -/
theorem GuardLine.takeChange_of_free {l : GuardLine} (h : l.asserted = false) :
    l.takeChange = { l with taken := l.config.activeHigh, run := 0, changed := true } := by
  have flipped : (!l.taken) = l.config.activeHigh := by
    unfold GuardLine.asserted at h
    revert h
    cases l.taken <;> cases l.config.activeHigh <;> simp
  rw [GuardLine.takeChange, flipped]

theorem GuardLine.takeChange_of_asserted {l : GuardLine} (h : l.asserted = true) :
    l.takeChange = { l with taken := !l.config.activeHigh, run := 0, changed := true } := by
  have same : l.taken = l.config.activeHigh := eq_of_beq h
  rw [GuardLine.takeChange, same]

/-- R104: what an assertion does to the line itself, before its class has its effect. -/
theorem takeAssertion_eq {n : LineIx} {p : Part} (run : (p.guard.lines.read n).run = 10)
    (free : (p.guard.lines.read n).asserted = false) :
    takeAssertion n p = classEffect n (latchEvent n.val
      (setLine n (fun x => { x with taken := x.config.activeHigh, run := 0, changed := true, settle := none }) p)) := by
  have taken : takeAssertion n p = assertLine n (setLine n GuardLine.takeChange p) :=
    if_pos (by rw [(GuardLine.changing_iff _).mpr run, free]; rfl)
  rw [taken, assertLine, setLine_setLine, setLine_congr (p := p)
    (f := fun x => { GuardLine.takeChange x with settle := none })
    (g := fun x => { x with taken := x.config.activeHigh, run := 0, changed := true, settle := none })
    (by rw [GuardLine.takeChange_of_free free])]
  rfl

theorem takeAssertion_stays {n : LineIx} {p : Part} (run : (p.guard.lines.read n).run ≠ 10) : takeAssertion n p = p :=
  if_neg (by
    intro h
    exact run ((GuardLine.changing_iff _).mp (Bool.and_eq_true_iff.mp h).1))

theorem takeDeassertion_stays {n : LineIx} {p : Part} (run : (p.guard.lines.read n).run ≠ 10) : takeDeassertion n p = p :=
  if_neg (by
    intro h
    exact run ((GuardLine.changing_iff _).mp (Bool.and_eq_true_iff.mp h).1))

/-- R104: a NOTE line has no effect beyond its latch. -/
theorem classEffect_note {n : LineIx} {p : Part} (h : (p.guard.lines.read n).config.cls = .note) : classEffect n p = p := by
  rw [classEffect, h]

/-- R106: the deassertion of a line, and the settle it begins. -/
theorem takeDeassertion_eq {n : LineIx} {p : Part} (run : (p.guard.lines.read n).run = 10)
    (asserted : (p.guard.lines.read n).asserted = true) :
    takeDeassertion n p = setLine n (fun x => { x with
      taken := !x.config.activeHigh, run := 0, changed := true
      settle := if x.config.autoResume = true ∧
          (x.config.cls ≠ .note ∨ ∃ k : FigIx, (p.figures.read k).hold.getLsbD n.val = true)
        then some (p.lineTime + x.config.settleTime) else x.settle }) p := by
  have taken : takeDeassertion n p = deassertLine n (setLine n GuardLine.takeChange p) :=
    if_pos (by rw [(GuardLine.changing_iff _).mpr run, asserted]; rfl)
  have begins : ∀ q : Part, (((q.guard.lines.read n).config.autoResume &&
      ((q.guard.lines.read n).config.cls ≠ .note || lineHeld n q)) = true) ↔
      ((q.guard.lines.read n).config.autoResume = true ∧
        ((q.guard.lines.read n).config.cls ≠ .note ∨ ∃ k : FigIx, (q.figures.read k).hold.getLsbD n.val = true)) := by
    intro q
    rw [Bool.and_eq_true, Bool.or_eq_true, decide_eq_true_iff, lineHeld_iff]
  have config : ((setLine n GuardLine.takeChange p).guard.lines.read n).config = (p.guard.lines.read n).config :=
    (congrArg GuardLine.config (setLine_own n GuardLine.takeChange p)).trans rfl
  have figures : (setLine n GuardLine.takeChange p).figures = p.figures := rfl
  rw [taken, deassertLine]
  split
  next settles =>
    have settles := (begins _).mp settles
    rw [config, figures] at settles
    rw [config, setLine_setLine]
    refine setLine_congr ?_
    simp only [GuardLine.takeChange_of_asserted asserted]
    rw [if_pos settles]
    rfl
  next not =>
    have not := fun h => not ((begins _).mpr h)
    rw [config, figures] at not
    refine setLine_congr ?_
    simp only [GuardLine.takeChange_of_asserted asserted]
    rw [if_neg not]

/-! ## The end of a settle (R106) -/

section
variable {n : LineIx} {k : FigIx} {p : Part}

theorem removeHold_free (h : (p.figures.read k).hold.getLsbD n.val = false) : removeHold n k p = p :=
  if_neg (by rw [member, h]; exact Bool.false_ne_true)

/-- R106: a figure held by the line that stays as it is but for its hold set. -/
theorem removeHold_stays (held : (p.figures.read k).hold.getLsbD n.val = true)
    (h : (p.figures.read k).state ≠ .frozen ∨ (p.figures.read k).hold &&& ~~~ BitVec.twoPow 8 n.val ≠ 0) :
    removeHold n k p = setFigure k (fun x => { x with hold := dropMember x.hold n.val }) p := by
  have kept : ¬ ((decide (dropMember (p.figures.read k).hold n.val = 0) && decide ((p.figures.read k).state = .frozen)) = true) := by
    rw [Bool.and_eq_true, decide_eq_true_iff, decide_eq_true_iff]
    rintro ⟨empty, frozen⟩
    rcases h with h | h
    · exact h frozen
    · exact h empty
  rw [removeHold]
  dsimp only
  rw [if_pos (show member _ _ = true from held), if_neg kept]

/-- R106, R97: a FROZEN figure that the line alone held is resynchronised. -/
theorem removeHold_last (held : (p.figures.read k).hold.getLsbD n.val = true) (frozen : (p.figures.read k).state = .frozen)
    (empty : (p.figures.read k).hold &&& ~~~ BitVec.twoPow 8 n.val = 0) :
    removeHold n k p = resync k (setFigure k (fun x => { x with hold := dropMember x.hold n.val }) p) := by
  have freed : (decide (dropMember (p.figures.read k).hold n.val = 0) && decide ((p.figures.read k).state = .frozen)) = true := by
    rw [Bool.and_eq_true, decide_eq_true_iff, decide_eq_true_iff]
    exact ⟨empty, frozen⟩
  rw [removeHold]
  dsimp only
  rw [if_pos (show member _ _ = true from held), if_pos freed]

end

/-- R106: what the end of line `n`'s settle leaves of a figure `g`, the live record of figure `k` in `p`. -/
def settledFigure (p : Part) (n : LineIx) (k : FigIx) (g t : LiveFigure) : Prop :=
  let left := g.hold &&& ~~~ BitVec.twoPow 8 n.val
  (g.hold.getLsbD n.val = false → t = g) ∧
  (g.hold.getLsbD n.val = true → g.state ≠ .frozen ∨ left ≠ 0 → t = { g with hold := left }) ∧
  (g.hold.getLsbD n.val = true → g.state = .frozen → left = 0 → t = resyncedFrom p k g)

theorem removeHold_own (n : LineIx) (k : FigIx) (p : Part) :
    settledFigure p n k (p.figures.read k) ((removeHold n k p).figures.read k) := by
  refine ⟨fun free => ?_, fun held stays => ?_, fun held frozen empty => ?_⟩
  · rw [removeHold_free free]
  · rw [removeHold_stays held stays, setFigure_own]
    rfl
  · have empty' : ((setFigure k (fun x => { x with hold := dropMember x.hold n.val }) p).figures.read k).hold = 0 := by
      rw [setFigure_own]; exact empty
    rw [removeHold_last held frozen empty, resync_own _ _ empty', setFigure_own, resyncedFrom_hold,
      resyncedFrom_congr (p := p)
        (q := setFigure k (fun x => { x with hold := dropMember x.hold n.val }) p) rfl rfl]

/-- R106: every figure loses the line. -/
theorem removeHolds_own (n : LineIx) (k : FigIx) (p : Part) :
    settledFigure p n k (p.figures.read k) ((allFigures.foldl (fun x k => removeHold n k x) p).figures.read k) := by
  obtain ⟨q, before, after⟩ := foldl_own (fun q k => (removeHold_rested n k q).posed) allFigures_once (mem_allFigures k) p
  have own := removeHold_own n k q
  rw [before.others k (fun h => h rfl)] at own
  rw [after.others k (fun h => h rfl)]
  obtain ⟨free, stays, last⟩ := own
  exact ⟨free, stays, fun held frozen empty => (last held frozen empty).trans
    (resyncedFrom_congr before.words before.lineTime k _)⟩

/-- Settles O38. -/
theorem guardChangesAreTaken : Obligations.GuardChangesAreTaken := by
  intro s n running l
  have asserts : exec (.guardAssertion n) s = .next (s.withPart (takeAssertion n s.part)) := run_running _ s running
  have deasserts : exec (.guardDeassertion n) s = .next (s.withPart (takeDeassertion n s.part)) := run_running _ s running
  have settles : exec (.settleEnd n) s = .next (s.withPart (endSettle n s.part)) := run_running _ s running
  refine ⟨fun run => ⟨?_, ?_⟩, fun run free note => ?_, fun run asserted => ?_, fun early => ?_, fun due => ?_⟩
  · rw [asserts, takeAssertion_stays run]
    rfl
  · rw [deasserts, takeDeassertion_stays run]
    rfl
  · rw [asserts, takeAssertion_eq run free, classEffect_note]
    rw [(latchEvent_noted _ _).guard, setLine_own]
    exact note
  · rw [deasserts, takeDeassertion_eq run asserted]
  · rw [settles, endSettle, early]
    rfl
  · have folds : endSettle n s.part = allFigures.foldl (fun x k => removeHold n k x)
        (setLine n (fun l => { l with settle := none }) s.part) := if_pos due
    have rested : Rested (fun _ => True) (setLine n (fun l => { l with settle := none }) s.part) (endSettle n s.part) := by
      rw [folds]
      exact foldl_rested _ _ _ fun q k => (removeHold_rested n k q).mono fun _ _ => trivial
    refine ⟨_, settles, rfl, rested.guard, rested.sameButFigures, fun k => ?_⟩
    have own := removeHolds_own n k (setLine n (fun l => { l with settle := none }) s.part)
    rw [← folds] at own
    obtain ⟨free, stays, last⟩ := own
    exact ⟨free, stays, fun held frozen empty => (last held frozen empty).trans 
      (resyncedFrom_congr (p := s.part) (q := setLine n (fun l => { l with settle := none }) s.part) rfl rfl k _)⟩

/-! ## Reads of the events and of the guard lines (R103, R112) -/

/-- Settles O42. -/
theorem eventsAndGuardLinesAreRead : Obligations.EventsAndGuardLinesAreRead := by
  intro s e rest p four
  refine ⟨fun waiting => ?_, fun waiting => ?_, fun waiting => ?_⟩
  · exact onRequest_waiting .eventRead eventReadRequest s e rest waiting
  · intro named latches repeats
    have length : e.frame.payload.length = 5 := of_decide_eq_true waiting.2.2.2
    have number : e.frame.number 1 4 =
      ((e.frame.arg 1 * 256 + e.frame.arg 2) * 256 + e.frame.arg 3) * 256 + e.frame.arg 4 := number_four _ _ (by omega)
    refine (onRequest_waiting .eventClear eventClearRequest s e rest waiting).trans ?_
    rw [eventClearRequest, number]
    rfl
  · refine ⟨s.part.guard.lines.each fun l => { l with changed := false }, fun n => Bank.read_each _ _ _, ?_⟩
    refine (onRequest_waiting .guardRead guardReadRequest s e rest waiting).trans ?_
    have bytes : GuardLine.statusByte = fun l => BitVec.ofNat 8 ((if l.taken then 1 else 0) +
        (if l.taken = l.config.activeHigh then 2 else 0) + (if l.changed then 4 else 0) + (if l.settle.isSome then 8 else 0)) := by
      funext l
      have asserted : bitIf l.asserted 1 = if l.taken = l.config.activeHigh then 2 else 0 := by
        simp [bitIf, GuardLine.asserted]
      rw [GuardLine.statusByte, asserted]
      rfl
    rw [guardReadRequest, bytes]
    rfl

/-! ## The error record (R157, R158) -/

theorem drawBytes_eq (n : Nat) (p : Part) : drawBytes n p =
    ((List.range n).map (fun k => Config.freeByte (p.freeUsed + k)), { p with freeUsed := p.freeUsed + n }) := by
  induction n generalizing p with
  | zero => rfl
  | succ n ih =>
    simp only [drawBytes, drawByte, ih, List.range_succ_eq_map, List.map_cons, List.map_map]
    refine Prod.ext (congrArg₂ _ rfl (List.map_congr_left fun k _ => ?_)) ?_
    · simp only [Function.comp]; congr 1; omega
    · simp only []; congr 1; omega

theorem appendReport_table (f : Frame) (p : Part) : (appendReport f p).table = p.table := by
  unfold appendReport
  dsimp only
  split <;> rfl

theorem latchEvent_table (k : Nat) (p : Part) : (latchEvent k p).table = p.table := by
  unfold latchEvent
  split
  · rfl
  · dsimp only
    split
    · exact appendReport_table _ _
    · rfl

/-- R157: the capture after an uncorrectable word has been offered. -/
theorem offerUncorrectable_capture (rd : Reader) (a : Nat) (p : Part) : (offerUncorrectable rd a p).table.capture =
    if p.table.capture.kind = .uncorrectable then { p.table.capture with repeated := true }
    else { kind := .uncorrectable, address := a, position := none, reader := rd, repeated := false } := by
  simp only [offerUncorrectable, latchEvent_table]
  cases h : p.table.capture.kind <;> simp

theorem offerCorrected_capture (rd : Reader) (a : Nat) (i : Fin 39) (p : Part) : (offerCorrected rd a i p).table.capture =
    if p.table.capture.kind = .empty then
      { kind := .corrected, address := a, position := some i.val, reader := rd, repeated := false }
    else p.table.capture := by
  unfold offerCorrected
  cases h : p.table.capture.kind
  · simp [latchEvent_table]
  · simp
  · simp

theorem offerCorrected_kept {rd : Reader} {a : Nat} {i : Fin 39} {p : Part} (h : p.table.capture.kind ≠ .empty) :
    offerCorrected rd a i p = p := by
  unfold offerCorrected
  cases e : p.table.capture.kind
  · exact absurd e h
  · rfl
  · rfl

theorem captureBytes_full {p : Part} (h : p.table.capture.kind ≠ .empty) : captureBytes p =
    (p.table.capture.kind.code :: bytesOf 2 p.table.capture.address ++
      [BitVec.ofNat 8 (p.table.capture.position.getD 255), p.table.capture.reader.code, flagByte p.table.capture.repeated], p) := by
  unfold captureBytes
  dsimp only
  split
  · contradiction
  · rfl
  · rfl

theorem captureBytes_empty {p : Part} (h : p.table.capture.kind = .empty) : captureBytes p =
    (0 :: (List.range 4).map (fun n => Config.freeByte (p.freeUsed + n)) ++ [0], { p with freeUsed := p.freeUsed + 4 }) := by
  unfold captureBytes
  dsimp only
  rw [h, drawBytes_eq]
  rfl

/-- Settles O46. -/
theorem worstErrorIsKeptAndRead : Obligations.WorstErrorIsKeptAndRead := by
  refine ⟨fun rd a i p => ⟨offerUncorrectable_capture rd a p, ?_, offerCorrected_capture rd a i p, offerCorrected_kept⟩, ?_⟩
  · rw [offerUncorrectable, latchEvent_latches, setMember_getLsbD _ _ _ (by decide)]
    simp [Source.uncorrectable]
  · intro s e rest waiting c cleared p
    have asked : exec .errorRead s = .next (s.withPart (errorReadRequest e (setManagement rest s.part))) :=
      onRequest_waiting .errorRead errorReadRequest s e rest waiting
    have clears : ∀ q : Part, q.table = s.part.table →
        (if e.frame.arg 1 = 0 then q else clearCapture q) = { q with table := { s.part.table with capture := cleared } } := by
      intro q h
      by_cases keep : e.frame.arg 1 = 0
      · simp only [cleared, c, if_pos keep, ← h]
      · simp only [cleared, c, if_neg keep, ← h, clearCapture]
    refine ⟨fun full => ?_, fun empty => ?_⟩
    · rw [asked, errorReadRequest, captureBytes_full (p := setManagement rest s.part) full]
      dsimp only
      rw [clears (setManagement rest s.part) rfl]
      rfl
    · rw [asked, errorReadRequest, captureBytes_empty (p := setManagement rest s.part) empty]
      dsimp only
      rw [clears { setManagement rest s.part with freeUsed := (setManagement rest s.part).freeUsed + 4 } rfl]
      rfl

end Sys2Proof.Machine
end

section
/-! What the management unit answers (R162, R166), the clock's millisecond (R2, R8), the heat of the bells (R71), the
release of the strikes (R65) and the judgement of a word (R154). -/

namespace Sys2Proof.Machine

/-! ## Entries judged in order (R162) -/

theorem Request.ofCode_none {n : Nat} (h : n = 0 ∨ 22 < n) : Request.ofCode n = none := by
  rcases h with rfl | h
  · rfl
  · obtain ⟨m, rfl⟩ : ∃ m, n = m + 23 := ⟨n - 23, by omega⟩
    rfl

/-- R162, case 3: TIMER CONTROL with another length is answered LENGTH by any of its six steps. -/
theorem onTimerControl_wrongLength (a : Nat) (body : IntakeEntry → TimerIx → Part → Part) (s : State) (e : IntakeEntry)
    (rest : List IntakeEntry) (running : s.part.phase = .running) (front : s.part.filter.management.entries = e :: rest)
    (request : e.frame.request = some .timerControl) (wrong : Request.timerControl.lengthSuits e.frame.payload.length = false) :
    s.run (whenRunning (onTimerControl a body)) = .next (s.withPart (answer e .length [] (setManagement rest s.part))) := by
  have length : e.frame.payload.length ≠ 6 := of_decide_eq_false wrong
  rw [run_running _ _ running, onTimerControl, takeManagement_head _ _ _ e rest front (by simp [request, length])]
  simp [wrong]

/-- R162, case 3: a request of a wrong length is answered LENGTH by the command that carries it out. -/
theorem exec_wrongLength (s : State) (e : IntakeEntry) (rest : List IntakeEntry) (running : s.part.phase = .running)
    (front : s.part.filter.management.entries = e :: rest) (r : Request) (request : e.frame.request = some r)
    (wrong : r.lengthSuits e.frame.payload.length = false) :
    exec (requestCommand r e.frame) s = .next (s.withPart (answer e .length [] (setManagement rest s.part))) := by
  cases r
  case timerControl =>
    simp only [requestCommand, timerCommand]
    split <;> exact onTimerControl_wrongLength _ _ s e rest running front request wrong
  all_goals exact onRequest_wrongLength _ _ s e rest running front request wrong

/-- Settles O47. -/
theorem entriesAreJudgedInOrder : Obligations.EntriesAreJudgedInOrder := by
  intro s e rest running front p reply
  refine ⟨fun kind empty => ?_, fun c args kind payload code => ?_, fun kind => ?_, exec_wrongLength s e rest running front⟩
  · have takes : emptyRequestEntry e.frame = true := by simp [emptyRequestEntry, kind, empty]
    refine (run_running _ s running).trans ?_
    rw [takeManagement_head _ _ _ e rest front takes, answer, replyFrame, empty]
    rfl
  · have unnamed : e.frame.request = none := by
      rw [Frame.request, if_pos kind, payload]
      refine Request.ofCode_none (code.imp_left ?_)
      rintro rfl
      rfl
    have takes : unknownRequestEntry e.frame = true := by simp [unknownRequestEntry, kind, payload, unnamed]
    refine (run_running _ s running).trans ?_
    rw [takeManagement_head _ _ _ e rest front takes, answer, replyFrame, payload]
    rfl
  · refine (run_running _ s running).trans ?_
    rw [takeManagement_head _ _ _ e rest front (by simp [kind])]
    rfl

/-! ## The status pages (R166) -/

/-- R166: no data beyond the last page, or beyond a page's last part. -/
theorem statusPage_none {page part : Nat} {p : Part} (h : 4 < page ∨ (page = 0 ∧ 3 < part) ∨ (page = 1 ∧ 21 < part) ∨
    (page = 2 ∧ 0 < part) ∨ (page = 3 ∧ 2 < part) ∨ (page = 4 ∧ 0 < part)) : statusPage page part p = none := by
  rcases h with h | ⟨rfl, h⟩ | ⟨rfl, h⟩ | ⟨rfl, h⟩ | ⟨rfl, h⟩ | ⟨rfl, h⟩
  · obtain ⟨m, rfl⟩ : ∃ m, page = m + 5 := ⟨page - 5, by omega⟩
    rfl
  · obtain ⟨m, rfl⟩ : ∃ m, part = m + 1 := ⟨part - 1, by omega⟩
    simp [statusPage, index?_beyond (show 3 ≤ m by omega)]
  · simp [statusPage, index?_beyond (show 16 ≤ part by omega), h]
  · simp [statusPage, Nat.pos_iff_ne_zero.mp h]
  · obtain ⟨m, rfl⟩ : ∃ m, part = m + 3 := ⟨part - 3, by omega⟩
    rfl
  · simp [statusPage, Nat.pos_iff_ne_zero.mp h]

theorem statusPage_slot (i : SlotIx) (p : Part) : statusPage 0 (i.val + 1) p = some (slotPage i p) := by
  simp [statusPage, index?_val]

theorem slotPage_busy {i : SlotIx} {p : Part} (h : (p.slots.read i).busy = true) : slotPage i p = ((slotPage i p).1, p) := by
  rw [slotPage, if_pos h]

theorem slotPage_idle {i : SlotIx} {p : Part} (h : (p.slots.read i).state = .idle) : slotPage i p =
    (0 :: (List.range 9).map (fun n => Config.freeByte (p.freeUsed + n)) ++ waitingBytes (p.slots.read i) p.lineTime,
      { p with freeUsed := p.freeUsed + 9 }) := by
  have free : ¬ (p.slots.read i).busy = true := by simp [Slot.busy, h]
  rw [slotPage, if_neg free, h, drawBytes_eq]
  rfl

/-- R166: the data that the pages without free bytes give. -/
theorem statusPage_data {page part : Nat} {p : Part} {data : List Byte}
    (h : (page = 0 ∧ part = 0 ∧ data = clockPage p.cal) ∨
      (∃ i : SlotIx, page = 0 ∧ part = i.val + 1 ∧ (p.slots.read i).busy = true ∧ data = (slotPage i p).1) ∨
      (∃ k : FigIx, page = 1 ∧ part = k.val ∧ data = figurePage (p.figures.read k)) ∨
      (page = 1 ∧ 16 ≤ part ∧ part ≤ 21 ∧ data = bellPage part p) ∨
      (page = 2 ∧ part = 0 ∧ data = queuePage p) ∨ (page = 4 ∧ part = 0 ∧ data = verifyBytes p.verify.result)) :
    statusPage page part p = some (data, p) := by
  rcases h with ⟨rfl, rfl, rfl⟩ | ⟨i, rfl, rfl, busy, rfl⟩ | ⟨k, rfl, rfl, rfl⟩ | ⟨rfl, from16, upTo, rfl⟩ | ⟨rfl, rfl, rfl⟩ |
    ⟨rfl, rfl, rfl⟩
  · rfl
  · rw [statusPage_slot, slotPage_busy busy]
  · simp [statusPage, index?_val]
  · simp [statusPage, index?_beyond from16, upTo]
  · rfl
  · rfl

theorem statusPage_counts {part : Nat} {p : Part} {data : List Nat}
    (h : (part = 0 ∧ data = lineCounts p) ∨ (part = 1 ∧ data = partCounts p) ∨ (part = 2 ∧ data = noteCounts p)) :
    statusPage 3 part p = some (data.flatMap (bytesOf 2), p) := by
  rcases h with ⟨rfl, rfl⟩ | ⟨rfl, rfl⟩ | ⟨rfl, rfl⟩ <;> rfl

/-- R166: the clear option leaves every count of page 3 at 0. -/
theorem counts_clearCounters (p : Part) : lineCounts (clearCounters p) ++ partCounts (clearCounters p) ++ noteCounts (clearCounters p) =
    List.replicate 32 0 := rfl

/-- R166: a page that exists, read without the clear option. -/
theorem statusReadRequest_read {e : IntakeEntry} {p q : Part} {d : List Byte} (keep : e.frame.arg 3 = 0)
    (h : statusPage (e.frame.arg 1) (e.frame.arg 2) p = some (d, q)) : statusReadRequest e p = answer e .done d q := by
  simp [statusReadRequest, keep, h]

/-- Settles O51. -/
theorem statusReadReportsAndClears : Obligations.StatusReadReportsAndClears := by
  intro s e rest waiting p page part
  have asked : exec .statusRead s = .next (s.withPart (statusReadRequest e p)) :=
    onRequest_waiting .statusRead statusReadRequest s e rest waiting
  refine ⟨fun refused => ?_, fun data keep h => ?_, fun i first second keep idle => ?_, fun data third h => ?_⟩
  · rw [asked, statusReadRequest]
    split
    · rfl
    · next allowed =>
      have none : statusPage page part p = none := statusPage_none (by
        rcases refused with h | h | h | h | h | h | ⟨other, clear⟩
        · exact .inl h
        · exact .inr (.inl h)
        · exact .inr (.inr (.inl h))
        · exact .inr (.inr (.inr (.inl h)))
        · exact .inr (.inr (.inr (.inr (.inl h))))
        · exact .inr (.inr (.inr (.inr (.inr h))))
        · exact absurd (by simp [clear, show e.frame.arg 1 ≠ 3 from other]) allowed)
      rw [none]
  · rw [asked, statusReadRequest_read keep (statusPage_data h)]
  · have given : statusPage (e.frame.arg 1) (e.frame.arg 2) p = some (slotPage i p) := by
      rw [show e.frame.arg 1 = 0 from first, show e.frame.arg 2 = i.val + 1 from second, statusPage_slot]
    rw [slotPage_idle idle] at given
    rw [asked, statusReadRequest_read keep given]
    rfl
  · have given : statusPage (e.frame.arg 1) (e.frame.arg 2) p = some (data.flatMap (bytesOf 2), p) := by
      rw [show e.frame.arg 1 = 3 from third]
      exact statusPage_counts h
    refine ⟨if e.frame.arg 3 = 0 then p else clearCounters p, ?_, fun keep => if_pos keep, fun clear => ?_⟩
    · rw [asked, statusReadRequest, given]
      by_cases keep : e.frame.arg 3 = 0
      · simp [keep]
      · simp [keep, show e.frame.arg 1 = 3 from third]
    · rw [if_neg clear, counts_clearCounters]
      exact ⟨fun n hn => List.eq_of_mem_replicate hn, rfl, rfl, rfl, rfl, rfl⟩

/-! ## The clock's millisecond (R2, R8) -/

/-- Settles O15. -/
theorem clockAdvancesByTheSlew : Obligations.ClockAdvancesByTheSlew := by
  intro s possible
  refine ⟨fun unset => ?_, fun set room => ?_⟩
  · have still : s.part.cal.advanced (slewDue s.part) = s.part.cal := if_pos (by simp [unset])
    change Host.Outcome.next (s.withPart { s.part with cal := s.part.cal.advanced (slewDue s.part) }) = _
    rw [still]
    rfl
  · refine ⟨s.part.cal.advanced (slewDue s.part), rfl, ?_⟩
    generalize s.part.cal = c at *
    have goes : ¬ ((c.clockState = .unset || lastMillis ≤ c.clock.millis) = true) := by
      simp [set]
      omega
    rw [CalendarUnit.advanced, if_neg goes]
    split
    next fast =>
      obtain ⟨due, ahead⟩ := Bool.and_eq_true_iff.mp fast
      have ahead : 0 < c.slew := of_decide_eq_true ahead
      refine ⟨rfl, DateTime.possible_later _ _, fun _ _ => ⟨DateTime.millis_later room, rfl⟩, fun _ behind => ?_, ?_⟩
      · omega
      · rintro (never | none)
        · rw [never] at due; cases due
        · omega
    next notFast =>
      split
      next slow =>
        obtain ⟨due, behind⟩ := Bool.and_eq_true_iff.mp slow
        have behind : c.slew < 0 := of_decide_eq_true behind
        refine ⟨rfl, possible, fun _ ahead => ?_, fun _ _ => ⟨rfl, rfl⟩, ?_⟩
        · omega
        · rintro (never | none)
          · rw [never] at due; cases due
          · omega
      next notSlow =>
        refine ⟨rfl, DateTime.possible_later _ _, fun due ahead => ?_, fun due behind => ?_, fun _ =>
          ⟨DateTime.millis_later (by omega), rfl⟩⟩
        · exact absurd (by simp [due, ahead]) notFast
        · exact absurd (by simp [due, behind]) notSlow

/-! ## Cooling (R71) -/

/-- R71: the heat that the cooling tick leaves bell `b`, told by the words of its record. -/
def cooledBell (words : List (Nat × StoredWord)) (b : BellIx) (x : BellState) : BellState :=
  { x with heat := cooled x.heat (bellRecord fun k => (wordAt words (bellBase b + k)).data).coolShift }

theorem coolBell_clean {b : BellIx} {p : Part} (h : p.table.clean) : coolBell b p = setBell b (cooledBell p.table.words b) p := by
  have read : readBell b bellCoolingWords p = (some (bellRecord (recordWords p (bellBase b) bellCoolingWords)), p) := by
    have inside : ∀ k ∈ bellCoolingWords, bellBase b + k ≤ lastTableWord := by
      intro k hk
      rw [List.mem_singleton.mp hk]
      have := b.isLt
      simp only [bellBase, lastTableWord]
      omega
    rw [readBell, readRecord_clean _ _ _ _ h inside]
  rw [coolBell, read]
  split
  next cold =>
    refine (show setBell b (cooledBell p.table.words b) p = p from ?_).symm
    have fixed : cooledBell p.table.words b (p.strikes.bells.read b) = p.strikes.bells.read b := by
      rw [cooledBell, cold, cooled, Nat.zero_sub, ← cold]
    simp only [setBell, Bank.update_of_fixed fixed]
  next => rfl

/-- R71: bells that change one by one have all changed. -/
theorem foldl_setBell (f : BellIx → BellState → BellState) {bs : List BellIx} (once : bs.Nodup) (p : Part) :
    ∃ bells, bs.foldl (fun x b => setBell b (f b) x) p = { p with strikes := { p.strikes with bells := bells } } ∧
      ∀ b, bells.read b = if b ∈ bs then f b (p.strikes.bells.read b) else p.strikes.bells.read b := by
  induction bs generalizing p with
  | nil => exact ⟨p.strikes.bells, rfl, fun b => by simp⟩
  | cons a rest ih =>
    obtain ⟨fresh, once⟩ := List.nodup_cons.mp once
    obtain ⟨bells, eq, reads⟩ := ih once (setBell a (f a) p)
    refine ⟨bells, by rw [List.foldl_cons, eq]; rfl, fun b => ?_⟩
    rw [reads, show (setBell a (f a) p).strikes.bells = p.strikes.bells.update a (f a) from rfl, Bank.read_update]
    by_cases e : b = a
    · subst e; simp [fresh]
    · simp [e]

theorem foldl_coolBell_clean (bs : List BellIx) {p : Part} (h : p.table.clean) :
    bs.foldl (fun q b => coolBell b q) p = bs.foldl (fun q b => setBell b (cooledBell p.table.words b) q) p := by
  induction bs generalizing p with
  | nil => rfl
  | cons b rest ih =>
    rw [List.foldl_cons, List.foldl_cons, coolBell_clean h]
    exact ih (p := setBell b (cooledBell p.table.words b) p) h

/-- Settles O29. -/
theorem coolingTickLowersTheHeat : Obligations.CoolingTickLowersTheHeat := by
  intro s running due clean
  obtain ⟨bells, eq, reads⟩ := foldl_setBell (cooledBell s.part.table.words) (List.nodup_finRange 48) s.part
  refine ⟨bells, ?_, fun b => ?_⟩
  · refine (run_running _ s running).trans ?_
    rw [coolTick, if_pos due, foldl_coolBell_clean _ clean, ← eq]
    rfl
  · rw [reads, if_pos (List.mem_finRange b)]
    rfl

/-! ## Release (R65) -/

/-- R65: the last released fire instant of bell `b`, `old` before, once the entries `gone` are released. -/
def lastFire (gone : List Strike) (b : BellIx) (old : Option Int) : Option Int :=
  match (gone.filter fun g => g.bell = b).getLast? with
  | some g => some g.fire
  | none => old

theorem lastFire_cons (e : Strike) (gone : List Strike) (b : BellIx) (old : Option Int) :
    lastFire (e :: gone) b old = lastFire gone b (if e.bell = b then some e.fire else old) := by
  unfold lastFire
  by_cases own : e.bell = b
  · rw [List.filter_cons_of_pos (by simpa using own), List.getLast?_cons, if_pos own]
    cases (gone.filter fun g => g.bell = b).getLast? <;> rfl
  · rw [List.filter_cons_of_neg (by simpa using own), if_neg own]

/-- R65: the outcome of releases from part `p`: the entries gone, those left, and the bells' records. -/
structure Released (p : Part) (gone rest : List Strike) (bells : Bank BellState 48) : Prop where
  split : p.strikes.queue = gone ++ rest
  due : ∀ g ∈ gone, g.due p = true
  stops : ∀ g, rest.head? = some g → g.due p = false ∨ 16 ≤ p.out.strike.length + gone.length
  bell : ∀ b, bells.read b =
    { p.strikes.bells.read b with released := lastFire gone b (p.strikes.bells.read b).released }

/-- R65: the part after releases. -/
def Part.released (p : Part) (gone rest : List Strike) (bells : Bank BellState 48) : Part :=
  { p with
    strikes := { queue := rest, bells := bells }
    out := { p.out with strike := p.out.strike ++ gone.map fun g => StrikeFrame.mk g.bell g.velocity g.fire } }

theorem Released.none {p : Part} (h : ∀ g, p.strikes.queue.head? = some g → g.due p = false ∨ 16 ≤ p.out.strike.length) :
    Released p [] p.strikes.queue p.strikes.bells :=
  ⟨rfl, fun _ h => absurd h List.not_mem_nil, h, fun _ => rfl⟩

theorem releaseLoop_released (n : Nat) (p : Part) (h : p.strikes.queue.length ≤ n) :
    ∃ gone rest bells, Released p gone rest bells ∧ releaseLoop n p = p.released gone rest bells := by
  have stays : p.released [] p.strikes.queue p.strikes.bells = p := by simp [Part.released]
  induction n generalizing p with
  | zero =>
    have empty : p.strikes.queue = [] := List.length_eq_zero_iff.mp (Nat.le_zero.mp h)
    exact ⟨[], _, _, Released.none (by simp [empty]), stays.symm⟩
  | succ n ih =>
    unfold releaseLoop
    split
    next empty => exact ⟨[], _, _, Released.none (by simp [empty]), stays.symm⟩
    next e rest queue =>
      split
      next goes =>
        obtain ⟨due, _⟩ := Bool.and_eq_true_iff.mp goes
        have fits : (releaseStrike e rest p).strikes.queue.length ≤ n := by
          rw [queue] at h
          exact Nat.le_of_succ_le_succ h
        obtain ⟨gone, left, bells, released, eq⟩ := ih _ fits (by simp [Part.released])
        refine ⟨e :: gone, left, bells, ⟨?_, ?_, fun g hg => ?_, fun b => ?_⟩, ?_⟩
        · rw [queue]
          exact congrArg (e :: ·) released.split
        · intro g hg
          rcases List.mem_cons.mp hg with rfl | hg
          · exact due
          · exact released.due g hg
        · refine (released.stops g hg).imp_right fun full => ?_
          have one : (releaseStrike e rest p).out.strike.length = p.out.strike.length + 1 := List.length_append
          rw [one] at full
          rw [List.length_cons]
          omega
        · rw [released.bell, lastFire_cons, show (releaseStrike e rest p).strikes.bells =
            p.strikes.bells.update e.bell (fun b => { b with released := some e.fire }) from rfl, Bank.read_update]
          by_cases own : b = e.bell
          · subst own
            simp only [if_true]
          · rw [if_neg own, if_neg (Ne.symm own)]
        · rw [eq]
          simp [Part.released, releaseStrike, setBell, setOut, setQueue]
      next stops =>
        refine ⟨[], _, _, Released.none fun g hg => ?_, stays.symm⟩
        rw [queue] at hg
        obtain rfl : e = g := Option.some.inj hg
        cases due : e.due p
        · exact .inl rfl
        · refine .inr (Nat.le_of_not_lt fun room => stops ?_)
          rw [due, Bool.true_and]
          exact decide_eq_true room

theorem releaseDue_released (p : Part) : ∃ gone rest bells, Released p gone rest bells ∧ releaseDue p = p.released gone rest bells :=
  releaseLoop_released _ p (Nat.le_refl _)

/-- Settles O27. -/
theorem strikeReleaseTakesTheDueHeads : Obligations.StrikeReleaseTakesTheDueHeads := by
  intro s running
  obtain ⟨gone, rest, bells, released, eq⟩ := releaseDue_released s.part
  refine ⟨gone, rest, bells, released.split, ?_, fun g hg => of_decide_eq_true (released.due g hg), fun g hg => ?_, fun b => ?_⟩
  · refine (run_running _ s running).trans ?_
    rw [eq]
    rfl
  · refine (released.stops g hg).imp_left fun early => ?_
    exact Int.not_le.mp (of_decide_eq_false early)
  · rw [released.bell]
    exact ⟨rfl, rfl, rfl⟩

/-! ## The judgement of a word (R154) -/

theorem StoredWord.mem_disturbed {w : StoredWord} {i : Fin 39} : i ∈ w.disturbed ↔ w.flips.getLsbD i.val = true := by
  simp [StoredWord.disturbed, List.mem_filter]

theorem StoredWord.disturbed_nodup (w : StoredWord) : w.disturbed.Nodup := (List.nodup_finRange 39).filter _

theorem StoredWord.mem_disturbed_twoPow {w : Word} {i k : Fin 39} :
    k ∈ (StoredWord.mk w (BitVec.twoPow 39 i.val)).disturbed ↔ k = i := by
  rw [StoredWord.mem_disturbed, BitVec.getLsbD_twoPow, Bool.and_eq_true, decide_eq_true_iff, decide_eq_true_iff, Fin.ext_iff]
  exact ⟨fun h => h.2.symm, fun h => ⟨i.isLt, h.symm⟩⟩

theorem judged_twoPow (w : Word) (i : Fin 39) : (StoredWord.mk w (BitVec.twoPow 39 i.val)).judged = .corrected i := by
  have one : (StoredWord.mk w (BitVec.twoPow 39 i.val)).disturbed = [i] := by
    refine List.perm_singleton.mp ?_
    refine (List.perm_ext_iff_of_nodup (StoredWord.disturbed_nodup _) (List.nodup_singleton i)).mpr fun k => ?_
    rw [StoredWord.mem_disturbed_twoPow, List.mem_singleton]
  rw [StoredWord.judged, one]

theorem judged_two {w : Word} {i j : Fin 39} (h : i ≠ j) :
    (StoredWord.mk w (BitVec.twoPow 39 i.val ||| BitVec.twoPow 39 j.val)).judged = .uncorrectable := by
  have both : (StoredWord.mk w (BitVec.twoPow 39 i.val ||| BitVec.twoPow 39 j.val)).disturbed.Perm [i, j] := by
    refine (List.perm_ext_iff_of_nodup (StoredWord.disturbed_nodup _) (by simpa using h : [i, j].Nodup)).mpr fun k => ?_
    have single := @StoredWord.mem_disturbed_twoPow w
    simp only [StoredWord.mem_disturbed] at single
    rw [StoredWord.mem_disturbed, BitVec.getLsbD_or, Bool.or_eq_true, single, single, List.mem_pair]
  obtain ⟨a, b, two⟩ := List.length_eq_two.mp both.length_eq
  rw [StoredWord.judged, two]

theorem putRight_twoPow (w : Word) (i : Fin 39) : (StoredWord.mk w (BitVec.twoPow 39 i.val)).putRight i = w := by
  refine BitVec.eq_of_getLsbD_eq fun k hk => ?_
  unfold StoredWord.putRight StoredWord.storedData
  split
  next data =>
    simp only [BitVec.getLsbD_xor, BitVec.getLsbD_setWidth, BitVec.getLsbD_twoPow, i.isLt, data, hk, decide_true, Bool.true_and]
    cases w.getLsbD k <;> cases decide (i.val = k) <;> rfl
  next check =>
    have other : i.val ≠ k := by omega
    simp [BitVec.getLsbD_xor, BitVec.getLsbD_setWidth, BitVec.getLsbD_twoPow, other]

/-- Settles O43. -/
theorem singleErrorsAreCorrected : Obligations.SingleErrorsAreCorrected := by
  intro w i j
  exact ⟨⟨judged_twoPow w i, putRight_twoPow w i⟩, judged_two, judged_clean _ rfl, storedData_clean _ rfl⟩

end Sys2Proof.Machine
end

section
/-! Notes and barrels (chapters 03 and 04): what the strike scheduler leaves alone, what becomes of a note (R59 to R64),
and the reading of the due steps (R48 to R54). -/

namespace Sys2Proof.Machine

/-! ## What the strike scheduler leaves alone -/

/-- No latch and no frame of OQ-REPORT is lost, and the queue's levels, mode and release mark stay: only EVENT CLEAR and the
resets clear a latch. -/
structure Told (p q : Part) : Prop where
  latched : ∀ k, member p.events.latches k = true → member q.events.latches k = true
  report : p.out.report <+: q.out.report
  levels : q.out.levels = p.out.levels
  mode : q.out.mode = p.out.mode
  mark : q.out.mark = p.out.mark

theorem told_of_same {p q : Part} (h : (q.events, q.out.report, q.out.levels, q.out.mode, q.out.mark) =
    (p.events, p.out.report, p.out.levels, p.out.mode, p.out.mark)) : Told p q := by
  simp only [Prod.mk.injEq] at h
  obtain ⟨events, report, levels, mode, mark⟩ := h
  exact ⟨fun _ e => by rw [events]; exact e, by rw [report], levels, mode, mark⟩

theorem Told.refl (p : Part) : Told p p := told_of_same rfl

theorem Told.trans {p q r : Part} (h : Told p q) (k : Told q r) : Told p r :=
  ⟨fun n e => k.latched n (h.latched n e), h.report.trans k.report, k.levels.trans h.levels, k.mode.trans h.mode,
    k.mark.trans h.mark⟩

theorem Noted.told {p q : Part} (h : Noted p q) : Told p q :=
  ⟨h.latched, h.grows, by rw [h.frame], by rw [h.frame], by rw [h.frame]⟩

/-- R111: a cause changes of a pin at most the end of its pulse, and that in PULSE mode alone. -/
def PinState.stands (x y : PinState) : Prop := y.mode = x.mode ∧ (x.mode = .level → y = x)

theorem PinState.stands_refl (x : PinState) : x.stands x := ⟨rfl, fun _ => rfl⟩

theorem PinState.stands_trans {x y z : PinState} (h : x.stands y) (k : y.stands z) : x.stands z :=
  ⟨k.1.trans h.1, fun level => (k.2 (h.1.trans level)).trans (h.2 level)⟩

theorem PinState.caused_stands (x : PinState) (reached : Bool) (now : Nat) : x.stands (x.caused reached now) := by
  unfold caused
  split
  next pulse =>
    refine ⟨rfl, fun level => ?_⟩
    rw [level, Bool.and_eq_true] at pulse
    exact absurd pulse.2 (by decide)
  next => exact stands_refl x

/-- The event unit keeps its enables, its routes and the modes of its pins. -/
structure Wired (p q : Part) : Prop where
  enables : q.events.enables = p.events.enables
  routeFrame : q.events.routeFrame = p.events.routeFrame
  routeStop : q.events.routeStop = p.events.routeStop
  routeBeacon : q.events.routeBeacon = p.events.routeBeacon
  stop : p.events.stop.stands q.events.stop
  beacon : p.events.beacon.stands q.events.beacon

theorem wired_of_same {p q : Part} (h : q.events = p.events) : Wired p q := by
  constructor <;> rw [h] <;> exact PinState.stands_refl _

theorem Wired.refl (p : Part) : Wired p p := wired_of_same rfl

theorem Wired.trans {p q r : Part} (h : Wired p q) (k : Wired q r) : Wired p r :=
  ⟨k.enables.trans h.enables, k.routeFrame.trans h.routeFrame, k.routeStop.trans h.routeStop,
    k.routeBeacon.trans h.routeBeacon, PinState.stands_trans h.stop k.stop, PinState.stands_trans h.beacon k.beacon⟩

theorem causePins_wired (k : Nat) (p : Part) : Wired p (causePins k p) :=
  ⟨rfl, rfl, rfl, rfl, PinState.caused_stands _ _ _, PinState.caused_stands _ _ _⟩

theorem raiseAttention_wired (p : Part) : Wired p (raiseAttention p) := by
  constructor <;> rw [raiseAttention_events] <;> exact PinState.stands_refl _

theorem setLatches_wired (p : Part) (latches repeats : BitVec 32) :
    Wired p { p with events := { p.events with latches := latches, repeats := repeats } } :=
  ⟨rfl, rfl, rfl, rfl, PinState.stands_refl _, PinState.stands_refl _⟩

theorem latchEvent_wired (k : Nat) (p : Part) : Wired p (latchEvent k p) := by
  unfold latchEvent
  split
  · exact (setLatches_wired p p.events.latches (setMember p.events.repeats k)).trans (causePins_wired k _)
  · have set := setLatches_wired p (setMember p.events.latches k) p.events.repeats
    dsimp only
    split
    · exact (set.trans (raiseAttention_wired _)).trans (causePins_wired k _)
    · exact set.trans (causePins_wired k _)

theorem offerCorrected_wired (rd : Reader) (a : Nat) (i : Fin 39) (p : Part) :
    Wired p (offerCorrected rd a i (countCorrected p)) := by
  unfold offerCorrected
  split
  · refine Wired.trans ?_ (latchEvent_wired _ _)
    exact wired_of_same rfl
  · exact wired_of_same rfl
  · exact wired_of_same rfl

theorem offerUncorrectable_wired (rd : Reader) (a : Nat) (p : Part) : Wired p (offerUncorrectable rd a p) := by
  unfold offerUncorrectable
  refine Wired.trans (wired_of_same ?_) (latchEvent_wired _ _)
  split <;> rfl

theorem readWord_wired (rd : Reader) (a : Nat) (p : Part) : Wired p (readWord rd a p).2 := by
  unfold readWord
  split
  · exact Wired.refl p
  · dsimp only
    split
    · exact Wired.refl p
    · exact offerCorrected_wired _ _ _ _
    · exact offerUncorrectable_wired _ _ _

theorem readEach_wired (rd : Reader) (as : List Nat) (p : Part) : Wired p (readEach rd as p).2 := by
  induction as generalizing p with
  | nil => exact Wired.refl p
  | cons a rest ih => exact (readWord_wired rd a p).trans (ih _)

theorem readBell_wired (b : BellIx) (o : List Nat) (p : Part) : Wired p (readBell b o p).2 := by
  have read := readEach_wired .record (o.map (bellBase b + ·)) p
  unfold readBell
  dsimp only
  split
  · exact read
  · exact read.trans (wired_of_same rfl)

/-- What the barrel reader and the strike scheduler change: the strikes, OQ-STRIKE, the counts and the record of errors. -/
structure Struck (p q : Part) : Prop extends Carried p q, Told p q, Wired p q where
  figures : q.figures = p.figures

theorem Struck.refl (p : Part) : Struck p p := ⟨Carried.refl p, Told.refl p, Wired.refl p, rfl⟩

theorem Struck.trans {p q r : Part} (h : Struck p q) (k : Struck q r) : Struck p r :=
  ⟨h.toCarried.trans k.toCarried, h.toTold.trans k.toTold, h.toWired.trans k.toWired, k.figures.trans h.figures⟩

theorem Noted.struck {p q : Part} (h : Noted p q) (wired : Wired p q) : Struck p q := ⟨h.carried, h.told, wired, h.figures⟩

theorem latchEvent_struck (k : Nat) (p : Part) : Struck p (latchEvent k p) := (latchEvent_noted k p).struck (latchEvent_wired k p)

theorem readWord_struck (rd : Reader) (a : Nat) (p : Part) : Struck p (readWord rd a p).2 :=
  (readWord_noted rd a p).struck (readWord_wired rd a p)

theorem setCounts_struck (f : Counts → Counts) (p : Part) : Struck p (setCounts f p) := (setCounts_noted f p).struck (wired_of_same rfl)

theorem setQueue_struck (q : List Strike) (p : Part) : Struck p (setQueue q p) := ⟨setQueue_carried q p, told_of_same rfl, wired_of_same rfl, rfl⟩

theorem releaseDue_struck (p : Part) : Struck p (releaseDue p) := by
  obtain ⟨_, _, _, _, h⟩ := releaseDue_frame p
  exact ⟨releaseDue_carried p, by rw [h]; exact told_of_same rfl, by rw [h]; exact wired_of_same rfl, by rw [h]⟩

theorem readBell_struck (b : BellIx) (o : List Nat) (p : Part) : Struck p (readBell b o p).2 := (readBell_noted b o p).struck (readBell_wired b o p)

theorem removeStrikes_struck (gone : Strike → Bool) (p : Part) : Struck p (removeStrikes gone p) := by
  unfold removeStrikes
  dsimp only
  split
  · exact (setQueue_struck _ p).trans (releaseDue_struck _)
  · exact setQueue_struck _ p

theorem placeNote_struck (s : SlotIx) (b : BellIx) (rec : BellRecord) (v n : Nat) (p : Part) :
    Struck p (placeNote s b rec v n p) := by
  unfold placeNote enqueueStrike
  dsimp only
  split
  · exact setCounts_struck _ _
  · split
    · exact (setQueue_struck _ p).trans (setCounts_struck _ _)
    · split
      · exact (setCounts_struck _ p).trans (latchEvent_struck _ _)
      · split
        · exact (setQueue_struck _ p).trans (releaseDue_struck _)
        · exact setQueue_struck _ p

theorem substituteNote_struck (s : SlotIx) (rec : BellRecord) (v n : Nat) (p : Part) :
    Struck p (substituteNote s rec v n p) := by
  unfold substituteNote
  split
  · exact setCounts_struck _ _
  · split
    · exact setCounts_struck _ _
    · dsimp only
      split
      · exact (readBell_struck _ _ p).trans (setCounts_struck _ _)
      · split
        · exact (readBell_struck _ _ p).trans (setCounts_struck _ _)
        · exact (readBell_struck _ _ p).trans (placeNote_struck _ _ _ _ _ _)

theorem handNote_struck (s : SlotIx) (b : BellIx) (v instant : Nat) (p : Part) : Struck p (handNote s b v instant p) := by
  unfold handNote
  split
  · exact setCounts_struck _ _
  · dsimp only
    split
    · split
      · exact readBell_struck _ _ p
      · exact (readBell_struck _ _ p).trans (placeNote_struck _ _ _ _ _ _)
    · split
      · exact readBell_struck _ _ p
      · exact (readBell_struck _ _ p).trans (substituteNote_struck _ _ _ _ _)
    · split
      · exact readBell_struck _ _ p
      · exact (readBell_struck _ _ p).trans (substituteNote_struck _ _ _ _ _)

theorem passNote_struck (s : SlotIx) (entry v instant : Nat) (p : Part) : Struck p (passNote s entry v instant p) := by
  unfold passNote
  split
  · exact setCounts_struck _ _
  · dsimp only
    split
    · exact readBell_struck _ _ p
    · split
      · exact (readBell_struck _ _ p).trans (setCounts_struck _ _)
      · exact (readBell_struck _ _ p).trans (handNote_struck _ _ _ _ _)

theorem readRow_struck (s : SlotIx) (x : BarrelContext) (k : Nat) (p : Part) : Struck p (readRow s x k p) := by
  unfold readRow
  dsimp only
  split
  · exact (readWord_struck _ _ p).trans (setCounts_struck _ _)
  · split
    · exact (readWord_struck _ _ p)
    · exact (readWord_struck _ _ p).trans (passNote_struck _ _ _ _ _)

theorem readRows_struck (s : SlotIx) (x : BarrelContext) (ks : List Nat) (p : Part) :
    Struck p (ks.foldl (fun q k => readRow s x k q) p) := by
  induction ks generalizing p with
  | nil => exact Struck.refl p
  | cons k rest ih => exact (readRow_struck s x k p).trans (ih _)

/-- R48: the reading of the due steps changes no figure and clears no latch. -/
theorem readLoop_struck (s : SlotIx) (n : Nat) (p : Part) :
    (readLoop s n p).figures = p.figures ∧ Told p (readLoop s n p) ∧ Wired p (readLoop s n p) := by
  induction n generalizing p with
  | zero => exact ⟨rfl, Told.refl p, Wired.refl p⟩
  | succ n ih =>
    unfold readLoop
    split
    · have rows := readRows_struck s (p.contexts.read s) (List.range (p.contexts.read s).header.rows) p
      have cursor : Told ((List.range (p.contexts.read s).header.rows).foldl (fun q k => readRow s (p.contexts.read s) k q) p)
          (readStep s p) ∧ Wired ((List.range (p.contexts.read s).header.rows).foldl
            (fun q k => readRow s (p.contexts.read s) k q) p) (readStep s p) := ⟨told_of_same rfl, wired_of_same rfl⟩
      obtain ⟨figures, told, wired⟩ := ih (readStep s p)
      exact ⟨figures.trans rows.figures, (rows.toTold.trans cursor.1).trans told, (rows.toWired.trans cursor.2).trans wired⟩
    · exact ⟨rfl, Told.refl p, Wired.refl p⟩

theorem readDueSteps_figures (s : SlotIx) (p : Part) : (readDueSteps s p).figures = p.figures := (readLoop_struck s _ p).1

theorem readDueSteps_told (s : SlotIx) (p : Part) : Told p (readDueSteps s p) := (readLoop_struck s _ p).2.1

theorem readDueSteps_wired (s : SlotIx) (p : Part) : Wired p (readDueSteps s p) := (readLoop_struck s _ p).2.2

theorem readDueSteps_latched (s : SlotIx) (p : Part) {k : Nat} (h : member p.events.latches k = true) :
    member (readDueSteps s p).events.latches k = true := (readDueSteps_told s p).latched k h

/-! ## What becomes of a note (R59 to R64) -/

theorem Strike.near_iff {e : Strike} {b : BellIx} {recovery : Nat} {f : Int} :
    e.near b recovery f = true ↔ e.bell = b ∧ (e.fire - f).natAbs < recovery := by
  rw [Strike.near, Bool.and_eq_true, decide_eq_true_iff, decide_eq_true_iff]

/-- R63: the first entry near the note takes the larger velocity. -/
theorem raiseFirst_split {b : BellIx} {recovery : Nat} {f : Int} {v : Nat} {before after : List Strike} {x : Strike}
    (far : ∀ y ∈ before, y.near b recovery f = false) (near : x.near b recovery f = true) :
    raiseFirst b recovery f v (before ++ x :: after) = before ++ { x with velocity := max x.velocity v } :: after := by
  induction before with
  | nil => exact if_pos near
  | cons y rest ih =>
    have first : y.near b recovery f = false := far y List.mem_cons_self
    rw [List.cons_append, raiseFirst, if_neg (by rw [first]; exact Bool.false_ne_true),
      ih fun z hz => far z (List.mem_cons_of_mem _ hz), List.cons_append]

section
variable {i : SlotIx} {b : BellIx} {rec : BellRecord} {v n : Nat} {p : Part}

/-- R62: a note within its bell's recovery of a released strike. -/
theorem placeNote_recovering {l : Int} (h : (p.strikes.bells.read b).released = some l)
    (soon : (n : Int) - (rec.flight v : Int) - l < (rec.recovery : Int)) :
    placeNote i b rec v n p = setCounts (fun c => { c with merged := bump c.merged }) p := by
  refine if_pos ?_
  rw [BellState.recovering, h]
  exact decide_eq_true soon

theorem not_recovering (h : ∀ l, (p.strikes.bells.read b).released = some l →
      (rec.recovery : Int) ≤ (n : Int) - (rec.flight v : Int) - l) :
    ¬ (p.strikes.bells.read b).recovering rec.recovery ((n : Int) - (rec.flight v : Int)) = true := by
  unfold BellState.recovering
  split
  · exact Bool.false_ne_true
  next l released =>
    rw [decide_eq_true_iff]
    exact Int.not_lt.mpr (h l released)

/-- R63: a note near a queued strike of its bell. -/
theorem placeNote_near (quiet : ¬ (p.strikes.bells.read b).recovering rec.recovery ((n : Int) - (rec.flight v : Int)) = true)
    {before after : List Strike} {x : Strike} (queue : p.strikes.queue = before ++ x :: after)
    (far : ∀ y ∈ before, y.near b rec.recovery ((n : Int) - (rec.flight v : Int)) = false)
    (near : x.near b rec.recovery ((n : Int) - (rec.flight v : Int)) = true) :
    placeNote i b rec v n p = setCounts (fun c => { c with merged := bump c.merged })
      (setQueue (before ++ { x with velocity := max x.velocity v } :: after) p) := by
  have some : (p.strikes.queue.any (·.near b rec.recovery ((n : Int) - (rec.flight v : Int)))) = true :=
    List.any_eq_true.mpr ⟨x, by rw [queue]; simp, near⟩
  rw [placeNote]
  rw [if_neg quiet, if_pos some, queue, raiseFirst_split far near]

/-- R64: a note that merges with nothing. -/
theorem placeNote_alone (quiet : ¬ (p.strikes.bells.read b).recovering rec.recovery ((n : Int) - (rec.flight v : Int)) = true)
    (far : ∀ x ∈ p.strikes.queue, x.bell = b → rec.recovery ≤ (x.fire - ((n : Int) - (rec.flight v : Int))).natAbs) :
    placeNote i b rec v n p = if 64 ≤ p.strikes.queue.length then
        latchEvent 26 (setCounts (fun c => { c with queueFull := bump c.queueFull }) p)
      else enqueueStrike { slot := i, bell := b, velocity := v, fire := (n : Int) - (rec.flight v : Int) } p := by
  have none : ¬ (p.strikes.queue.any (·.near b rec.recovery ((n : Int) - (rec.flight v : Int)))) = true := by
    rw [List.any_eq_true]
    rintro ⟨x, hx, near⟩
    obtain ⟨own, close⟩ := Strike.near_iff.mp near
    exact Nat.not_lt.mpr (far x hx own) close
  rw [placeNote]
  rw [if_neg quiet, if_neg none]
  rfl

end

/-- R64, R65: an entry goes behind every entry that fires no later, and is tested when it becomes the head. -/
theorem enqueueStrike_split (n : Strike) {p : Part} (ordered : strikesOrdered p) : ∃ before after,
    p.strikes.queue = before ++ after ∧ (∀ x ∈ before, x.fire ≤ n.fire) ∧ (∀ x ∈ after, n.fire < x.fire) ∧
      let q := setQueue (before ++ n :: after) p
      enqueueStrike n p = if before = [] then releaseDue q else q := by
  obtain ⟨before, after, split, inserted, early, first⟩ := insertStrike_split n p.strikes.queue
  have late : ∀ x ∈ after, n.fire < x.fire := by
    unfold strikesOrdered at ordered
    rw [split, List.pairwise_append] at ordered
    obtain ⟨-, tail, -⟩ := ordered
    cases after with
    | nil => exact fun x hx => absurd hx List.not_mem_nil
    | cons a rest =>
      have head := first a rfl
      intro x hx
      rcases List.mem_cons.mp hx with rfl | hx
      · exact head
      · exact Int.lt_of_lt_of_le head (List.rel_of_pairwise_cons tail hx)
  refine ⟨before, after, split, early, late, ?_⟩
  rw [enqueueStrike]
  dsimp only
  rw [inserted, split]
  cases before with
  | nil =>
    have heads : becomesHead n.fire ([] ++ after) = true := by
      cases after with
      | nil => rfl
      | cons a rest => exact decide_eq_true (first a rfl)
    rw [if_pos heads, if_pos rfl]
  | cons a rest =>
    have behind : ¬ becomesHead n.fire (a :: rest ++ after) = true := by
      have := early a List.mem_cons_self
      simp only [becomesHead, List.cons_append, List.head?_cons, Option.all_some, decide_eq_true_iff]
      omega
    rw [if_neg behind, if_neg (List.cons_ne_nil _ _)]

section
variable {i : SlotIx} {b : BellIx} {v instant : Nat} {p : Part}

theorem handNote_shadowed (h : p.bellOwner.read b ≠ some i) :
    handNote i b v instant p = setCounts (fun c => { c with shadowed := bump c.shadowed }) p := if_pos h

/-- R59: a note for a bell IN SERVICE. -/
theorem handNote_inService (own : p.bellOwner.read b = some i) (health : (p.strikes.bells.read b).health = .inService) :
    handNote i b v instant p = match (readBell b [0, 1] p).1 with
      | none => (readBell b [0, 1] p).2
      | some rec => placeNote i b rec v ((p.slots.read i).origin + instant) (readBell b [0, 1] p).2 := by
  rw [handNote, if_neg (not_not.mpr own), health]
  rfl

/-- R60: a note for a bell OUT OF SERVICE. -/
theorem handNote_outOfService (own : p.bellOwner.read b = some i) (health : (p.strikes.bells.read b).health ≠ .inService) :
    handNote i b v instant p = match (readBell b [3] p).1 with
      | none => (readBell b [3] p).2
      | some rec => substituteNote i rec v ((p.slots.read i).origin + instant) (readBell b [3] p).2 := by
  rw [handNote, if_neg (not_not.mpr own)]
  cases h : (p.strikes.bells.read b).health
  · exact absurd h health
  · rfl
  · rfl

end

section
variable {i : SlotIx} {rec : BellRecord} {v n : Nat} {p : Part}

theorem substituteNote_unfit {t : BellIx} (h : rec.substitute = some t)
    (unfit : (p.strikes.bells.read t).health ≠ .inService ∨ p.bellOwner.read t ≠ some i) :
    substituteNote i rec v n p = dropNoSubstitute p := by
  rw [substituteNote, h]
  exact if_pos (by simpa using unfit)

/-- R60: a substitute IN SERVICE and owned by the slot. -/
theorem substituteNote_fit {t : BellIx} (h : rec.substitute = some t) (health : (p.strikes.bells.read t).health = .inService)
    (own : p.bellOwner.read t = some i) : substituteNote i rec v n p = match (readBell t [0, 1] p).1 with
      | none => dropNoSubstitute (readBell t [0, 1] p).2
      | some rt => if rt.node = 0 then dropNoSubstitute (readBell t [0, 1] p).2
        else placeNote i t rt (rec.softened v) n (readBell t [0, 1] p).2 := by
  rw [substituteNote, h]
  exact if_neg (by simp [health, own])

end

/-- Settles O28. -/
theorem noteIsInsertedInFireOrder : Obligations.NoteIsInsertedInFireOrder := by
  refine ⟨fun i b rec v n p => ?_, fun i b v instant p => ?_⟩
  · refine ⟨fun l released soon => placeNote_recovering released soon, fun late => ?_⟩
    have quiet := not_recovering (p := p) (b := b) late
    refine ⟨fun before x after queue own near far => placeNote_near quiet queue ?_ (Strike.near_iff.mpr ⟨own, near⟩),
      fun far => ⟨fun full => ?_, fun ordered room => ?_⟩⟩
    · intro y hy
      refine Bool.eq_false_iff.mpr fun close => ?_
      obtain ⟨own, close⟩ := Strike.near_iff.mp close
      exact Nat.not_lt.mpr (far y hy own) close
    · rw [placeNote_alone quiet far, if_pos full]
    · obtain ⟨before, after, split, early, later, eq⟩ := enqueueStrike_split
        { slot := i, bell := b, velocity := v, fire := (n : Int) - (rec.flight v : Int) } ordered
      refine ⟨before, after, split, early, later, ?_⟩
      rw [placeNote_alone quiet far, if_neg (Nat.not_le.mpr room)]
      exact eq
  · refine ⟨handNote_shadowed, fun own health => ⟨fun lost => ?_, fun rec read => ?_⟩, fun own health => ⟨fun lost => ?_,
      fun rec read => ⟨fun none => ?_, fun t sub => ⟨fun unfit => ?_, fun fit owned => ⟨fun lost => ?_, fun rt again =>
        ⟨fun absent => ?_, fun present => ?_⟩⟩⟩⟩⟩⟩
    · rw [handNote_inService own health, lost]
    · rw [handNote_inService own health, read]
    · rw [handNote_outOfService own health, lost]
    all_goals rw [handNote_outOfService own health, read]
    · dsimp only
      rw [substituteNote, none]
      rfl
    all_goals
      have noted := readBell_noted b [3] p
    · refine substituteNote_unfit sub ?_
      rw [noted.strikes, noted.bellOwner]
      exact unfit
    all_goals
      refine (substituteNote_fit sub (by rw [noted.strikes]; exact fit) (by rw [noted.bellOwner]; exact owned)).trans ?_
    · rw [lost]
      rfl
    · rw [again]
      exact if_pos absent
    · rw [again]
      exact if_neg present

/-! ## Barrels (R48 to R54) -/

section
variable {i : SlotIx} {p : Part}

theorem readLoop_of_early (n : Nat) (h : stepDue i p = false) : readLoop i n p = p := by
  cases n with
  | zero => rfl
  | succ n => exact if_neg (by rw [h]; exact Bool.false_ne_true)

theorem readStep_context : (readStep i p).contexts.read i = (p.contexts.read i).advanced (p.slots.read i).reps := by
  obtain ⟨q, carried, eq⟩ := readStep_carried i p
  rw [eq, ← carried.contexts]
  exact Bank.read_update_self _ _ _

theorem readStep_slots : (readStep i p).slots = p.slots := by
  obtain ⟨q, carried, eq⟩ := readStep_carried i p
  rw [eq, ← carried.slots]
  rfl

theorem readStep_phase : (readStep i p).phase = p.phase := by
  obtain ⟨q, carried, eq⟩ := readStep_carried i p
  rw [eq, ← carried.phase]
  rfl

theorem stepDue_of_done (h : (p.contexts.read i).state = .done) : stepDue i p = false := by simp [stepDue, h]

end

/-- R48, R54: no step of slot `i` is due, once as many steps have been read as remain. -/
theorem readLoop_settles (i : SlotIx) (n : Nat) (p : Part) (rep : (p.contexts.read i).rep < (p.slots.read i).reps)
    (step : (p.contexts.read i).step ≤ (p.contexts.read i).lastStep)
    (enough : ((p.slots.read i).reps - (p.contexts.read i).rep) * ((p.contexts.read i).lastStep + 1) ≤
      n + (p.contexts.read i).step) : stepDue i (readLoop i n p) = false := by
  obtain ⟨m, left⟩ : ∃ m, (p.slots.read i).reps - (p.contexts.read i).rep = m + 1 :=
    ⟨(p.slots.read i).reps - (p.contexts.read i).rep - 1, by omega⟩
  induction n generalizing p m with
  | zero =>
    rw [left, Nat.succ_mul] at enough
    omega
  | succ n ih =>
    unfold readLoop
    split
    next due =>
      have own : (readStep i p).contexts.read i = (p.contexts.read i).advanced (p.slots.read i).reps := readStep_context
      have slot : (readStep i p).slots.read i = p.slots.read i := by rw [readStep_slots]
      unfold BarrelContext.advanced at own
      split at own
      next within =>
        refine ih (readStep i p) ?_ ?_ ?_ m ?_ <;> rw [own] <;> try rw [slot]
        · exact rep
        · exact within
        · rw [left] at enough ⊢
          dsimp only
          omega
        · exact left
      next ends =>
        split at own
        next again =>
          have fewer : (p.slots.read i).reps - ((p.contexts.read i).rep + 1) = m := by omega
          obtain ⟨m', rfl⟩ : ∃ m', m = m' + 1 := ⟨m - 1, by omega⟩
          refine ih (readStep i p) ?_ ?_ ?_ m' ?_ <;> rw [own] <;> try rw [slot]
          · exact again
          · exact Nat.zero_le _
          · dsimp only
            rw [left, Nat.succ_mul (m' + 1)] at enough
            rw [fewer]
            omega
          · exact fewer
        next =>
          have done : stepDue i (readStep i p) = false := stepDue_of_done (by rw [own])
          rw [readLoop_of_early n done]
          exact done
    next early => exact Bool.eq_false_iff.mpr early

/-- R48: more readings than needed read no more. -/
theorem readLoop_succ (i : SlotIx) (n : Nat) (p : Part) (h : stepDue i (readLoop i n p) = false) :
    readLoop i (n + 1) p = readLoop i n p := by
  induction n generalizing p with
  | zero => exact readLoop_of_early 1 h
  | succ n ih =>
    by_cases due : stepDue i p = true
    · have first : ∀ m, readLoop i (m + 1) p = readLoop i m (readStep i p) := fun m => if_pos due
      rw [first, first]
      refine ih _ ?_
      rw [← first]
      exact h
    · have early := Bool.eq_false_iff.mpr due
      rw [readLoop_of_early _ early, readLoop_of_early _ early]

section
variable {i : SlotIx} {p : Part}

theorem readDueSteps_settles (rep : (p.contexts.read i).rep < (p.slots.read i).reps)
    (step : (p.contexts.read i).step ≤ (p.contexts.read i).lastStep) : stepDue i (readDueSteps i p) = false :=
  readLoop_settles i _ p rep step (Nat.le_add_right_of_le (Nat.mul_le_mul_right _ (Nat.sub_le _ _)))

/-- R48: the due steps are read one after another. -/
theorem readDueSteps_step (rep : (p.contexts.read i).rep < (p.slots.read i).reps)
    (step : (p.contexts.read i).step ≤ (p.contexts.read i).lastStep) (due : stepDue i p = true) :
    readDueSteps i p = readDueSteps i (readStep i p) := by
  have fuel : (readStep i p).slots.read i = p.slots.read i := by rw [readStep_slots]
  have last : ((readStep i p).contexts.read i).lastStep = (p.contexts.read i).lastStep := by
    rw [readStep_context]
    unfold BarrelContext.advanced
    split
    · rfl
    · split <;> rfl
  have settles := readDueSteps_settles rep step
  unfold readDueSteps at settles ⊢
  rw [fuel, last]
  obtain ⟨n, some⟩ : ∃ n, (p.slots.read i).reps * ((p.contexts.read i).lastStep + 1) = n + 1 :=
    Nat.exists_eq_succ_of_ne_zero (Nat.mul_ne_zero (by omega) (by omega))
  rw [some] at settles ⊢
  have first : readLoop i (n + 1) p = readLoop i n (readStep i p) := if_pos due
  rw [first] at settles ⊢
  exact (readLoop_succ i n _ settles).symm

theorem stepDue_false_iff (running : (p.slots.read i).state = .running) (reading : (p.contexts.read i).state = .reading) :
    stepDue i p = false ↔ (p.slots.read i).time p.lineTime + p.settings.lookahead < (p.contexts.read i).nominal (p.slots.read i) := by
  rw [Bool.eq_false_iff, ← Nat.not_le]
  simp [stepDue, running, reading]

end

/-- R51: a note instant, written with a maximum. -/
theorem noteInstant_eq (a c : Nat) (z : Int) : noteInstant a c z = a + (max 0 ((c : Int) + z)).toNat := by
  rw [noteInstant]
  omega

section
variable {i : SlotIx} {x : BarrelContext} {k : Nat} {p : Part} {w : Word}

theorem readRow_lost (h : (readWord .barrel (x.elementWord k x.step) p).1 = none) : readRow i x k p =
    setCounts (fun c => { c with barrelError := bump c.barrelError }) (readWord .barrel (x.elementWord k x.step) p).2 := by
  rw [readRow, h]

/-- R50, R51: a row whose word reads well. -/
theorem readRow_read (h : (readWord .barrel (x.elementWord k x.step) p).1 = some w) : readRow i x k p =
    if x.velocityByte w x.step = 0 then (readWord .barrel (x.elementWord k x.step) p).2
    else passNote i (x.rowMap.getD k 255) (min (x.velocityByte w x.step) 127)
      (noteInstant (x.rep * (p.slots.read i).copy.period) (x.step * x.header.stepLength) (x.timing w x.step))
      (readWord .barrel (x.elementWord k x.step) p).2 := by
  rw [readRow, h]

end

theorem passNote_beyond {i : SlotIx} {entry v instant : Nat} {p : Part} (h : 47 < entry) :
    passNote i entry v instant p = setCounts (fun c => { c with noBell := bump c.noBell }) p := by
  rw [passNote, index?_beyond h]
  rfl

/-- R52, R53: a note for a bell of the table. -/
theorem passNote_bell (i : SlotIx) (b : BellIx) (v instant : Nat) (p : Part) : passNote i b.val v instant p =
    match (readBell b [0] p).1 with
    | none => (readBell b [0] p).2
    | some rec => if rec.node = 0 then setCounts (fun c => { c with noBell := bump c.noBell }) (readBell b [0] p).2
      else handNote i b v instant (readBell b [0] p).2 := by
  rw [passNote, index?_val]
  rfl

/-- Settles O26. -/
theorem barrelReadsEveryDueStep : Obligations.BarrelReadsEveryDueStep := by
  refine ⟨fun s i running runs rep step => ?_, fun i p => ?_⟩
  · have takes : ∀ q : Part, q.phase = .running → exec (.barrelStepRead i) (s.withPart q) =
        .next (s.withPart (readDueSteps i q)) := fun q h => run_running _ (s.withPart q) h
    refine ⟨⟨_, takes s.part running, rfl, fun reading => ?_, ?_⟩, fun due => ?_, fun early => ?_⟩
    · obtain ⟨carried, others⟩ := readDueSteps_carried i s.part
      have early := readDueSteps_settles rep step
      have slots : (readDueSteps i s.part).slots = s.part.slots := carried.slots
      have running' : ((readDueSteps i s.part).slots.read i).state = .running := by rw [slots]; exact runs
      have nominal := (stepDue_false_iff running' reading).mp early
      rw [show (readDueSteps i s.part).lineTime = s.part.lineTime from carried.lineTime,
        show (readDueSteps i s.part).settings = s.part.settings from carried.settings] at nominal
      exact nominal
    · obtain ⟨carried, others⟩ := readDueSteps_carried i s.part
      exact ⟨carried.slots, carried.bellOwner, carried.figOwner, carried.cal, readDueSteps_figures i s.part, carried.guard,
        carried.filter, (readDueSteps_grounded i s.part).sameGround, others⟩
    · rw [takes _ (readStep_phase.trans running), ← readDueSteps_step rep step due]
      exact takes s.part running
    · refine (takes s.part running).trans ?_
      rw [readDueSteps, readLoop_of_early _ early]
      rfl
  · intro x next
    have rows : ∀ q, (p.contexts.read i).advanced (p.slots.read i).reps = next → (∀ j, q.contexts.read j = p.contexts.read j) →
        setContext i (·.advanced (p.slots.read i).reps) q = setContext i (fun _ => next) q := by
      intro q own same
      have : q.contexts.update i (·.advanced (p.slots.read i).reps) = q.contexts.update i fun _ => next := by
        refine Bank.ext_read _ _ fun j => ?_
        by_cases h : j = i
        · subst h
          simp only [Bank.read_update_self, same]
          exact own
        · simp only [Bank.read_update_ne _ _ _ _ h]
      simp only [setContext, this]
    refine ⟨rows _ rfl fun j => ?_, fun k => ?_⟩
    · rw [(readRows_struck i x (List.range x.header.rows) p).contexts]
    intro at_ r place half copy
    refine ⟨readRow_lost, fun w read => ?_⟩
    intro timing instant
    have row : readRow i x k p = if byteAt w place = 0 then r.2
        else passNote i (x.rowMap.getD k 255) (min (byteAt w place) 127) instant r.2 := by
      have time : noteInstant (x.rep * (p.slots.read i).copy.period) (x.step * x.header.stepLength) (x.timing w x.step) = instant :=
        noteInstant_eq _ _ _
      rw [← time]
      exact readRow_read read
    refine ⟨fun silent => ?_, fun sounds beyond => ?_, fun b sounds entry => ?_⟩
    · rw [row, if_pos silent]
    · rw [row, if_neg sounds, passNote_beyond beyond]
    · rw [row, if_neg sounds, entry, passNote_bell]
      intro m
      refine ⟨fun lost => ?_, fun rec again => ⟨fun absent => ?_, fun present => ?_⟩⟩
      · rw [lost]
      · rw [again]
        exact if_pos absent
      · rw [again]
        exact if_neg present

end Sys2Proof.Machine
end

section
/-! The calendar (R10 to R16): candidates and winners, the minute boundary, start requests, and the TIME frames. -/

namespace Sys2Proof.Machine

/-! ## Entries, candidates and winners (R14 to R16) -/

/-- R14: the entries taken are those that read well, in index order. -/
theorem readCalendar_fst (is : List Nat) (p : Part) : (readCalendar is p).1 = is.filterMap fun i =>
    (readRecord .calendar (calendarBase i) [0, 1, 2, 3] p).1.map calendarEntry := by
  have told : ∀ q : Part, q.table.words = p.table.words → (readCalendar is q).1 = is.filterMap fun i =>
      (readRecord .calendar (calendarBase i) [0, 1, 2, 3] p).1.map calendarEntry := by
    induction is with
    | nil => exact fun _ _ => rfl
    | cons i rest ih =>
      intro q words
      have read := readRecord_fst_congr words .calendar .calendar (calendarBase i) [0, 1, 2, 3]
      have later := ih (readRecord .calendar (calendarBase i) [0, 1, 2, 3] q).2 ((readRecord_noted _ _ _ q).words.trans words)
      simp only [readCalendar, List.filterMap_cons]
      rw [← read]
      cases (readRecord .calendar (calendarBase i) [0, 1, 2, 3] q).1 with
      | none => exact later
      | some w => exact congrArg (calendarEntry w :: ·) later
  exact told p rfl

/-- R14: with no word disturbed the reading changes nothing. -/
theorem readCalendar_clean {p : Part} (h : p.table.clean) {is : List Nat} (inside : ∀ i ∈ is, i < 64) :
    (readCalendar is p).2 = p := by
  induction is with
  | nil => rfl
  | cons i rest ih =>
    have first := inside i List.mem_cons_self
    have reads : readRecord .calendar (calendarBase i) [0, 1, 2, 3] p =
        (some (recordWords p (calendarBase i) [0, 1, 2, 3]), p) := by
      refine readRecord_clean _ _ _ _ h fun k hk => ?_
      have : k ≤ 3 := by
        simp only [List.mem_cons, List.not_mem_nil, or_false] at hk
        omega
      simp only [calendarBase, lastTableWord]
      omega
    simp only [readCalendar, reads]
    exact ih fun j hj => inside j (List.mem_cons_of_mem _ hj)

/-- R16: the best entry of a list has the highest rank, and of those of that rank it is the first. -/
theorem bestOf_split {es : List CalendarEntry} {e : CalendarEntry} (h : bestOf es = some e) : ∃ before after,
    es = before ++ e :: after ∧ (∀ x ∈ before, x.rank < e.rank) ∧ ∀ x ∈ after, x.rank ≤ e.rank := by
  induction es generalizing e with
  | nil => cases h
  | cons y rest ih =>
    unfold bestOf at h
    split at h
    next none =>
      obtain rfl : y = e := Option.some.inj h
      cases rest with
      | nil => exact ⟨[], [], rfl, by simp, by simp⟩
      | cons z more =>
        unfold bestOf at none
        split at none
        · cases none
        · split at none <;> cases none
    next x best =>
      obtain ⟨before, after, split, lower, upper⟩ := ih best
      split at h
      next lower' =>
        obtain rfl : x = e := Option.some.inj h
        refine ⟨y :: before, after, by rw [split]; rfl, fun z hz => ?_, upper⟩
        rcases List.mem_cons.mp hz with rfl | hz
        · exact lower'
        · exact lower z hz
      next atLeast =>
        obtain rfl : y = e := Option.some.inj h
        refine ⟨[], rest, rfl, by simp, fun z hz => ?_⟩
        have best : x.rank ≤ y.rank := Nat.not_lt.mp atLeast
        rw [split] at hz
        rcases List.mem_append.mp hz with hz | hz
        · exact (Nat.le_of_lt (lower z hz)).trans best
        · rcases List.mem_cons.mp hz with rfl | hz
          · exact best
          · exact (upper z hz).trans best

theorem bestOf_none {es : List CalendarEntry} : bestOf es = none ↔ es = [] := by
  cases es with
  | nil => exact ⟨fun _ => rfl, fun _ => rfl⟩
  | cons e rest =>
    refine ⟨fun h => ?_, fun h => by cases h⟩
    unfold bestOf at h
    split at h
    · cases h
    · split at h <;> cases h

theorem winner_none {es : List CalendarEntry} {slot : SlotIx} {b : DateTime} :
    winner es slot b = none ↔ ∀ e ∈ es, e.candidate slot b = false := by
  rw [winner, bestOf_none, List.filter_eq_nil_iff]
  exact forall₂_congr fun e _ => by rw [Bool.not_eq_true]

theorem winner_split {es : List CalendarEntry} {slot : SlotIx} {b : DateTime} {e : CalendarEntry}
    (h : winner es slot b = some e) : ∃ before after, es = before ++ e :: after ∧ e.candidate slot b = true ∧
      (∀ x ∈ before, x.candidate slot b = true → x.rank < e.rank) ∧
      ∀ x ∈ after, x.candidate slot b = true → x.rank ≤ e.rank := by
  obtain ⟨before, after, split, lower, upper⟩ := bestOf_split h
  obtain ⟨front, back, rfl, rfl, tail⟩ := List.filter_eq_append_iff.mp split
  obtain ⟨skipped, rest, rfl, not, candidate, rfl⟩ := List.filter_eq_cons_iff.mp tail
  refine ⟨front ++ skipped, rest, (List.append_assoc _ _ _).symm, candidate, fun x hx own => ?_, fun x hx own => ?_⟩
  · rcases List.mem_append.mp hx with hx | hx
    · exact lower x (List.mem_filter.mpr ⟨hx, own⟩)
    · exact absurd own (not x hx)
  · exact upper x (List.mem_filter.mpr ⟨hx, own⟩)

theorem CalendarEntry.candidate_iff (e : CalendarEntry) (slot : SlotIx) (b : DateTime) : e.candidate slot b = true ↔
    e.valid = true ∧ e.slot = slot ∧ e.inRange b = true ∧ e.weekdays.testBit b.weekday = true ∧
      e.hours.testBit b.hour = true ∧ e.minute = b.minute := by
  simp only [CalendarEntry.candidate, Bool.and_eq_true, decide_eq_true_eq]
  tauto

/-- R16: a slot's winner is an entry of that slot. -/
theorem winner_slot {es : List CalendarEntry} {slot : SlotIx} {b : DateTime} {e : CalendarEntry}
    (h : winner es slot b = some e) : e.slot = slot := by
  obtain ⟨-, -, -, candidate, -⟩ := winner_split h
  exact ((e.candidate_iff slot b).mp candidate).2.1

/-- R15: one date is not after another, month first and then day. -/
def dateUpTo (x y : Nat × Nat) : Prop := x.1 < y.1 ∨ x.1 = y.1 ∧ x.2 ≤ y.2

theorem dateKey_le {m d m' d' : Nat} (hd : d ≤ 31) (hd' : d' ≤ 31) :
    dateKey m d ≤ dateKey m' d' ↔ dateUpTo (m, d) (m', d') := by
  simp only [dateKey, dateUpTo]
  omega

theorem CalendarEntry.inRange_iff {e : CalendarEntry} {b : DateTime} (start : e.startDay ≤ 31) (stop : e.endDay ≤ 31)
    (day : b.day ≤ 31) : e.inRange b = true ↔
      (dateUpTo (e.startMonth, e.startDay) (e.endMonth, e.endDay) →
        dateUpTo (e.startMonth, e.startDay) (b.month, b.day) ∧ dateUpTo (b.month, b.day) (e.endMonth, e.endDay)) ∧
      (¬ dateUpTo (e.startMonth, e.startDay) (e.endMonth, e.endDay) →
        dateUpTo (e.startMonth, e.startDay) (b.month, b.day) ∨ dateUpTo (b.month, b.day) (e.endMonth, e.endDay)) := by
  rw [← dateKey_le start stop, ← dateKey_le start day, ← dateKey_le day stop, CalendarEntry.inRange]
  split
  next within =>
    rw [Bool.and_eq_true, decide_eq_true_iff, decide_eq_true_iff]
    exact ⟨fun h => ⟨fun _ => h, fun no => absurd within no⟩, fun h => h.1 within⟩
  next wraps =>
    rw [Bool.or_eq_true, decide_eq_true_iff, decide_eq_true_iff]
    exact ⟨fun h => ⟨fun no => absurd no wraps, fun _ => h⟩, fun h => h.2 wraps⟩

theorem monthLength_le (y m : Nat) : monthLength y m ≤ 31 := by
  unfold monthLength
  split <;> try split
  all_goals omega

/-- R1: the weekday of a possible time, from its milliseconds. -/
theorem DateTime.weekday_eq {b : DateTime} (h : b.possible = true) : b.weekday = (b.millis / 86400000 + 5) % 7 := by
  obtain ⟨_, _, _, _, _, _, hour, minute, second, milli⟩ := b.possible_iff.mp h
  have day : b.millis / 86400000 = b.dayNumber := by
    simp only [DateTime.millis, dayMillis, minuteMillis]
    omega
  rw [day, DateTime.weekday]

/-- A bit of a byte of a word is a bit of the word. -/
theorem testBit_byteAt {w : Word} {k j : Nat} (hj : j < 8) :
    (byteAt w k).testBit j = w.getLsbD (8 * (3 - k) + j) := by
  have power : 256 ^ (3 - k) = 2 ^ (8 * (3 - k)) := by rw [Nat.pow_mul]
  rw [byteAt, power, show 256 = 2 ^ 8 from rfl, Nat.testBit_mod_two_pow, Nat.testBit_div_two_pow, BitVec.getLsbD]
  simp [hj, Nat.add_comm]

/-- Settles O17. -/
theorem winnerHasTheHighestRank : Obligations.WinnerHasTheHighestRank := by
  refine ⟨fun p => readCalendar_fst _ p, fun w slot b possible => ?_, fun es slot b => ⟨winner_none, fun e => winner_split⟩⟩
  intro upTo first last day monday
  obtain ⟨_, _, _, _, _, dayMax, hour, _⟩ := b.possible_iff.mp possible
  have dayLe : b.day ≤ 31 := dayMax.trans (monthLength_le _ _)
  have startLe : (calendarEntry w).startDay ≤ 31 := by simp only [calendarEntry, clamp]; omega
  have endLe : (calendarEntry w).endDay ≤ 31 := by simp only [calendarEntry, clamp]; omega
  have range := CalendarEntry.inRange_iff startLe endLe dayLe
  have slotIs : (calendarEntry w).slot = slot ↔ min 2 (byteAt (w 1) 3) = slot.val := by
    rw [Fin.ext_iff, Nat.min_comm]
    rfl
  have weekday : (calendarEntry w).weekdays.testBit b.weekday = (w 1).getLsbD (16 + monday) := by
    rw [DateTime.weekday_eq possible]
    exact testBit_byteAt ((Nat.mod_lt _ (by decide)).trans (by decide))
  have hours : (calendarEntry w).hours.testBit b.hour = (w 2).getLsbD (8 + b.hour) := by
    rw [show (calendarEntry w).hours = (w 2).toNat / 2 ^ 8 from rfl, Nat.testBit_div_two_pow, BitVec.getLsbD, Nat.add_comm]
  have valid : (calendarEntry w).valid = true ↔ byteAt (w 0) 0 ≠ 0 := decide_eq_true_iff
  have minute : (calendarEntry w).minute = min 59 (byteAt (w 1) 2) := Nat.min_comm _ _
  refine ⟨?_, Nat.min_comm _ _, Nat.min_comm _ _⟩
  rw [CalendarEntry.candidate_iff, valid, slotIs, weekday, hours, minute, range]
  simp only [and_assoc]
  rfl

/-! ## The minute boundary (R10, R11, R16) -/

theorem handWinner_winner {es : List CalendarEntry} {slot : SlotIx} {b : DateTime} {t : Nat} {p : Part} (time : p.lineTime = t) :
    handWinner (winner es slot b) b p = match winner es slot b with
      | none => p
      | some e => requestStart { slot := slot, showIx := e.showIx, source := .calendar, rank := e.rank
                                 hour := some b.hour, trigger := t } p := by
  cases h : winner es slot b with
  | none => rfl
  | some e =>
    rw [handWinner, calendarRequest, winner_slot h, time]

section
variable {r : StartRequest} {p : Part}

/-- R27: a request whose show fails its checks, or whose show has no hour to count, is lost. -/
theorem attemptStart_error {start : Nat → CheckedShow → Part → Part} {why : Result} (h : (checkShow r.showIx p).1 = .error why) :
    attemptStart r start p = latchEvent 24 (checkShow r.showIx p).2 := by
  rw [attemptStart, h]
  rfl

theorem attemptStart_noHour {start : Nat → CheckedShow → Part → Part} {c : CheckedShow} (h : (checkShow r.showIx p).1 = .ok c)
    (none : repetitions c.copy r.hour = none) : attemptStart r start p = latchEvent 24 (checkShow r.showIx p).2 := by
  rw [attemptStart, h]
  dsimp only
  rw [none]
  rfl

theorem attemptStart_starts {start : Nat → CheckedShow → Part → Part} {c : CheckedShow} {reps : Nat}
    (h : (checkShow r.showIx p).1 = .ok c) (some : repetitions c.copy r.hour = some reps) :
    attemptStart r start p = start reps c (checkShow r.showIx p).2 := by
  rw [attemptStart, h]
  dsimp only
  rw [some]

end

/-- R28: the slots of the part just after a start: the slot named runs the show, the others are as they were. -/
structure Started (slot : SlotIx) (k : ShowIx) (source : StartSource) (rank reps : Nat) (p t : Part) : Prop where
  state : (t.slots.read slot).state = .running
  showIx : (t.slots.read slot).showIx = k
  source : (t.slots.read slot).source = source
  rank : (t.slots.read slot).rank = rank
  reps : (t.slots.read slot).reps = reps
  origin : (t.slots.read slot).origin = p.lineTime
  hold : (t.slots.read slot).hold = none
  waiting : (t.slots.read slot).waiting = (p.slots.read slot).waiting
  others : ∀ i, i ≠ slot → t.slots.read i = p.slots.read i
  owners : ownersAgree t
  latched : member t.events.latches 22 = true

/-- R28, step 4: the part before the due steps are read. -/
def begunShow (slot : SlotIx) (k : ShowIx) (source : StartSource) (rank reps : Nat) (c : CheckedShow) (p : Part) : Part :=
  let r := resolveItems c.copy.items (governingItems c.copy.items) [] p
  latchEvent 22 (setContext slot (fun _ => contextOf c) (recompute (setSlot slot (fun x => { x with
    state := .running, showIx := k, source := source, rank := rank, reps := reps
    origin := p.lineTime, hold := none, copy := { c.copy with figures := r.1 } }) r.2)))

theorem startShow_eq (slot : SlotIx) (k : ShowIx) (source : StartSource) (rank reps : Nat) (c : CheckedShow) (p : Part) :
    startShow slot k source rank reps c p = readDueSteps slot (begunShow slot k source rank reps c p) := rfl

/-- R39: the owners agree with the slots, whatever else of a part changes. -/
theorem ownersAgree_congr {p q : Part} (slots : q.slots = p.slots) (bells : q.bellOwner = p.bellOwner)
    (figures : q.figOwner = p.figOwner) (h : ownersAgree p) : ownersAgree q := by
  unfold ownersAgree
  rw [slots, bells, figures]
  exact h

theorem begunShow_slots (slot : SlotIx) (k : ShowIx) (source : StartSource) (rank reps : Nat) (c : CheckedShow) (p : Part) :
    (begunShow slot k source rank reps c p).slots = p.slots.update slot fun x => { x with
      state := .running, showIx := k, source := source, rank := rank, reps := reps, origin := p.lineTime, hold := none
      copy := { c.copy with figures := (resolveItems c.copy.items (governingItems c.copy.items) [] p).1 } } := by
  have slots := (resolveItems_carried c.copy.items (governingItems c.copy.items) [] p).slots
  unfold begunShow
  dsimp only
  rw [(latchEvent_noted _ _).slots, setContext_slots, recompute_slots, setSlot_slots, slots]

theorem begunShow_owners (slot : SlotIx) (k : ShowIx) (source : StartSource) (rank reps : Nat) (c : CheckedShow) (p : Part) :
    ownersAgree (begunShow slot k source rank reps c p) := by
  unfold begunShow
  dsimp only
  generalize setSlot slot _ _ = q
  have agrees := recompute_agrees q
  generalize recompute q = r at agrees ⊢
  have noted := latchEvent_noted 22 (setContext slot (fun _ => contextOf c) r)
  exact ownersAgree_congr (p := r) noted.slots noted.bellOwner noted.figOwner agrees

theorem member_latchEvent {k : Nat} (h : k < 32) (p : Part) : member (latchEvent k p).events.latches k = true := by
  rw [latchEvent_latches, member, setMember_getLsbD _ _ _ h]
  simp

theorem begunShow_latched (slot : SlotIx) (k : ShowIx) (source : StartSource) (rank reps : Nat) (c : CheckedShow) (p : Part) :
    member (begunShow slot k source rank reps c p).events.latches 22 = true := by
  unfold begunShow
  exact member_latchEvent (by decide) _

theorem startShow_started (slot : SlotIx) (k : ShowIx) (source : StartSource) (rank reps : Nat) (c : CheckedShow) (p : Part) :
    Started slot k source rank reps p (startShow slot k source rank reps c p) := by
  rw [startShow_eq]
  have carried := (readDueSteps_carried slot (begunShow slot k source rank reps c p)).1
  have slots : (readDueSteps slot (begunShow slot k source rank reps c p)).slots = _ :=
    carried.slots.trans (begunShow_slots slot k source rank reps c p)
  have own := Bank.read_update_self p.slots slot fun x => { x with
    state := .running, showIx := k, source := source, rank := rank, reps := reps, origin := p.lineTime, hold := none
    copy := { c.copy with figures := (resolveItems c.copy.items (governingItems c.copy.items) [] p).1 } }
  rw [← slots] at own
  exact {
    state := by rw [own]
    showIx := by rw [own]
    source := by rw [own]
    rank := by rw [own]
    reps := by rw [own]
    origin := by rw [own]
    hold := by rw [own]
    waiting := by rw [own]
    others := fun i hi => by rw [slots]; exact Bank.read_update_ne _ _ _ _ hi
    owners := ownersAgree_congr carried.slots carried.bellOwner carried.figOwner (begunShow_owners slot k source rank reps c p)
    latched := readDueSteps_latched _ _ (begunShow_latched slot k source rank reps c p) }

theorem Started.congr {slot : SlotIx} {k : ShowIx} {source : StartSource} {rank reps : Nat} {p q t : Part}
    (h : Started slot k source rank reps q t) (time : q.lineTime = p.lineTime)
    (waiting : (q.slots.read slot).waiting = (p.slots.read slot).waiting)
    (others : ∀ i, i ≠ slot → q.slots.read i = p.slots.read i) : Started slot k source rank reps p t :=
  { h with
    origin := h.origin.trans time
    waiting := h.waiting.trans waiting
    others := fun i hi => (h.others i hi).trans (others i hi) }

theorem Started.after {slot : SlotIx} {k : ShowIx} {source : StartSource} {rank reps : Nat} {p q t : Part}
    (h : Started slot k source rank reps q t) (noted : Noted p q) : Started slot k source rank reps p t :=
  h.congr noted.lineTime (by rw [noted.slots]) fun i _ => by rw [noted.slots]

theorem idleSlot_slots (slot : SlotIx) (p : Part) :
    (idleSlot slot p).slots = p.slots.update slot fun x => { x with state := .idle, hold := none } := by
  rw [idleSlot, recompute_slots]
  rfl

/-- R31: the replaced show leaves its slot's pending start and the other slots as they were. -/
theorem replaceShow_started (slot : SlotIx) (k : ShowIx) (source : StartSource) (rank reps : Nat) (c : CheckedShow) (p : Part) :
    Started slot k source rank reps p (replaceShow slot k source rank reps c p) := by
  refine (startShow_started slot k source rank reps c (idleSlot slot p)).congr (idleSlot_grounded slot p).lineTime ?_ fun i hi => ?_
  · rw [idleSlot_slots, Bank.read_update_self]
  · rw [idleSlot_slots, Bank.read_update_ne _ _ _ _ hi]

/-- R29, R31: a request for an IDLE slot, or one that replaces a calendar show of lower rank, is attempted. -/
theorem requestStart_attempts {r : StartRequest} {p : Part} (free : allStopAsserted p = false)
    (h : (p.slots.read r.slot).state = .idle ∨ replaces r (p.slots.read r.slot) = true) :
    ∃ start : Nat → CheckedShow → Part → Part, requestStart r p = attemptStart r start p ∧
      ∀ reps c q, Started r.slot r.showIx r.source r.rank reps q (start reps c q) := by
  have open_ : ¬ allStopAsserted p = true := by rw [free]; exact Bool.false_ne_true
  by_cases idle : (p.slots.read r.slot).state = .idle
  · refine ⟨_, ?_, fun reps c q => startShow_started r.slot r.showIx r.source r.rank reps c q⟩
    rw [requestStart, if_neg open_, if_pos (by rw [Slot.busy_of_idle idle]; rfl)]
  · refine ⟨_, ?_, fun reps c q => replaceShow_started r.slot r.showIx r.source r.rank reps c q⟩
    have busy : (p.slots.read r.slot).busy = true := (Slot.busy_iff _).mpr idle
    rw [requestStart, if_neg open_, if_neg (by rw [busy]; exact Bool.false_ne_true), if_pos (h.resolve_left idle)]

theorem requestStart_waits {r : StartRequest} {p : Part} (free : allStopAsserted p = false)
    (busy : (p.slots.read r.slot).state ≠ .idle) (h : replaces r (p.slots.read r.slot) = false) :
    requestStart r p = becomePending r p := by
  have busy : (p.slots.read r.slot).busy = true := (Slot.busy_iff _).mpr busy
  rw [requestStart, if_neg (by rw [free]; exact Bool.false_ne_true), if_neg (by rw [busy]; exact Bool.false_ne_true),
    if_neg (by rw [h]; exact Bool.false_ne_true)]

theorem passBoundary_passed {p : Part} (h : boundaryPassed p = true) :
    passBoundary p = setCal (fun c => { c with stamp := some p.cal.clock.floorMinute }) (evaluateBoundary p.cal.clock.floorMinute p) :=
  if_pos h

/-- Settles O16. -/
theorem minuteBoundarySetsTheStamp : Obligations.MinuteBoundarySetsTheStamp := by
  refine ⟨fun s running => ?_, fun r p => ?_⟩
  · have evaluates : exec .minuteBoundaryEvaluation s = .next (s.withPart (passBoundary s.part)) := run_running _ s running
    have stays : boundaryPassed s.part = false → exec .minuteBoundaryEvaluation s = .next s := fun early => by
      rw [evaluates, passBoundary, early]
      rfl
    refine ⟨fun passed => ?_, fun unset => stays (by simp [boundaryPassed, unset]), stays⟩
    intro b read served t
    have all := evaluateBoundary_grounded b s.part
    have step : ∀ (i : SlotIx) (q : Part), q.lineTime = s.part.lineTime → handWinner (winner read.1 i b) b q = served i q :=
      fun i q time => handWinner_winner time
    have hands : ∀ (i : SlotIx) (q : Part), Grounded q (handWinner (winner read.1 i b) b q) := fun i q => handWinner_grounded _ _ q
    have time : read.2.lineTime = s.part.lineTime := (readCalendar_noted (List.range 64) s.part).lineTime
    have time0 : (served 0 read.2).lineTime = s.part.lineTime := by
      rw [← step 0 _ time]; exact (hands 0 _).lineTime.trans time
    have time1 : (served 1 (served 0 read.2)).lineTime = s.part.lineTime := by
      rw [← step 1 _ time0]; exact (hands 1 _).lineTime.trans time0
    have told : evaluateBoundary b s.part = t := by
      change handWinner (winner read.1 2 b) b (handWinner (winner read.1 1 b) b (handWinner (winner read.1 0 b) b read.2)) = t
      rw [step 0 _ time, step 1 _ time0, step 2 _ time1]
    rw [told] at all
    refine ⟨?_, all.sameGround, all.filter, all.guard⟩
    rw [evaluates, passBoundary_passed passed]
    change Host.Outcome.next (s.withPart (setCal (fun c => { c with stamp := some b }) (evaluateBoundary b s.part))) = _
    rw [told, setCal, all.cal]
  · intro x c replaces'
    refine ⟨requestStart_stopped, fun free h => ?_, fun free busy not => ?_⟩
    · have agrees : x.state = .idle ∨ replaces r x = true := by
        refine h.imp_right fun h => ?_
        have : x.state ≠ .idle ∧ r.source = .calendar ∧ x.source = .calendar ∧ x.rank < r.rank := of_decide_eq_true h
        obtain ⟨-, own, held, lower⟩ := this
        simp [replaces, own, held, lower]
      obtain ⟨start, attempts, started⟩ := requestStart_attempts free agrees
      refine ⟨fun why fails => ?_, fun show_ ok none => ?_, fun show_ reps ok some => ?_⟩
      · rw [attempts, attemptStart_error fails]
      · rw [attempts, attemptStart_noHour ok none]
      · have done := (started reps show_ c.2).after (checkShow_noted r.showIx p)
        rw [attempts, attemptStart_starts ok some]
        exact ⟨done.state, done.showIx, done.source, done.rank, done.reps, done.origin, done.hold, done.waiting, done.others,
          done.owners, done.latched⟩
    · have keeps : replaces r x = false := by
        have : ¬ (x.state ≠ .idle ∧ r.source = .calendar ∧ x.source = .calendar ∧ x.rank < r.rank) := of_decide_eq_false not
        rw [Bool.eq_false_iff]
        intro h
        simp only [replaces, Bool.and_eq_true, decide_eq_true_eq] at h
        obtain ⟨⟨own, held⟩, lower⟩ := h
        exact this ⟨busy, own, held, lower⟩
      rw [requestStart_waits free busy keeps]
      rfl

end Sys2Proof.Machine
end

section
/-! The TIME frames (R4 to R9) and the catching up of skipped boundaries (R12, R13). -/

namespace Sys2Proof.Machine

/-! ## Skipped boundaries (R12) -/

/-- R10: a time of second and millisecond 0 is a whole minute, and the other way round. -/
theorem DateTime.floorMinute_eq_self {b : DateTime} : b.floorMinute = b ↔ b.second = 0 ∧ b.milli = 0 := by
  obtain ⟨y, mo, d, h, mi, se, ms⟩ := b
  simp only [DateTime.floorMinute, DateTime.mk.injEq, true_and]
  exact ⟨fun ⟨s, m⟩ => ⟨s.symm, m.symm⟩, fun ⟨s, m⟩ => ⟨s.symm, m.symm⟩⟩

theorem DateTime.ext_millis {a b : DateTime} (ha : a.possible = true) (hb : b.possible = true) (h : a.millis = b.millis) : a = b := by
  rw [← timeOfMillis_millis ha, ← timeOfMillis_millis hb, h]

/-- R12: the minute `k` minutes before the minute of `now`. -/
theorem minuteBefore_spec {now k : Nat} (h : now ≤ lastMillis) :
    let b := timeOfMillis ((now / 60000 - k) * 60000)
    b.possible = true ∧ b.millis = (now / 60000 - k) * 60000 ∧ b.second = 0 ∧ b.milli = 0 := by
  intro b
  obtain ⟨possible, millis⟩ := timeOfMillis_spec (n := (now / 60000 - k) * 60000) (by omega)
  refine ⟨possible, millis, DateTime.floorMinute_eq_self.mp ?_⟩
  refine DateTime.ext_millis (DateTime.possible_floorMinute possible) possible ?_
  rw [DateTime.millis_floorMinute possible, millis, Nat.mul_div_cancel _ (by decide)]

/-- R12: the skipped boundaries are the minutes after the stamp, at or before the new time and within the window. -/
theorem mem_skippedBoundaries {stamp : Option DateTime} {now window : Nat} (h : now ≤ lastMillis) (b : DateTime) :
    b ∈ skippedBoundaries stamp now window ↔ b.possible = true ∧ b.second = 0 ∧ b.milli = 0 ∧ afterStamp stamp b = true ∧
      b.millis ≤ now ∧ now - b.millis ≤ window * 60000 := by
  simp only [skippedBoundaries, List.mem_filter, List.mem_map, List.mem_range, Bool.and_eq_true, decide_eq_true_eq]
  simp only [minuteMillis]
  constructor
  · rintro ⟨⟨k, ⟨_, _⟩, rfl⟩, after, inside⟩
    obtain ⟨possible, millis, second, milli⟩ := minuteBefore_spec (k := k) h
    refine ⟨possible, second, milli, after, ?_, inside⟩
    rw [millis]
    exact (Nat.mul_le_mul_right _ (Nat.sub_le _ _)).trans (Nat.div_mul_le_self _ _)
  · rintro ⟨possible, second, milli, after, past, inside⟩
    have whole : b.millis = b.millis / 60000 * 60000 := by
      rw [← DateTime.millis_floorMinute possible, DateTime.floorMinute_eq_self.mpr ⟨second, milli⟩]
    refine ⟨⟨now / 60000 - b.millis / 60000, ⟨by omega, by omega⟩, ?_⟩, after, inside⟩
    have back : now / 60000 - (now / 60000 - b.millis / 60000) = b.millis / 60000 := by omega
    rw [back, ← whole, timeOfMillis_millis possible]

/-- R12: the latest boundary comes first. -/
theorem skippedBoundaries_pairwise {stamp : Option DateTime} {now window : Nat} (h : now ≤ lastMillis) :
    (skippedBoundaries stamp now window).Pairwise fun a b => b.millis < a.millis := by
  refine List.Pairwise.filter _ (List.pairwise_map.mpr ?_)
  refine List.Pairwise.imp_of_mem ?_ (List.pairwise_lt_range.filter _)
  intro j k _ hk less
  have past : k * 60000 ≤ now := of_decide_eq_true (List.mem_filter.mp hk).2
  have laterThan := (minuteBefore_spec (k := k) h).2.1
  have earlierThan := (minuteBefore_spec (k := j) h).2.1
  rw [show minuteMillis = 60000 from rfl, laterThan, earlierThan]
  omega

/-! ## Catching up with no word disturbed (R12) -/

section
variable {p : Part} {i : SlotIx}

theorem searchSlot_clean (clean : p.table.clean) {before : List DateTime} (rest : List DateTime)
    (none : ∀ x ∈ before, winner (readCalendar (List.range 64) p).1 i x = none) :
    searchSlot i (before ++ rest) p = searchSlot i rest p := by
  have reads : (readCalendar (List.range 64) p).2 = p := readCalendar_clean clean fun _ => List.mem_range.mp
  induction before with
  | nil => rfl
  | cons b more ih =>
    rw [List.cons_append, searchSlot, none b List.mem_cons_self]
    dsimp only
    rw [reads]
    exact ih fun x hx => none x (List.mem_cons_of_mem _ hx)

theorem catchUpSlot_none (clean : p.table.clean) {bs : List DateTime}
    (none : ∀ b ∈ bs, winner (readCalendar (List.range 64) p).1 i b = none) : catchUpSlot bs p i = p := by
  have searched := searchSlot_clean clean [] none
  rw [List.append_nil] at searched
  rw [catchUpSlot, searched]
  rfl

/-- R12: a slot is served from the first boundary at which it has a winner. -/
theorem catchUpSlot_first (clean : p.table.clean) {before after : List DateTime} {b : DateTime} {e : CalendarEntry}
    (none : ∀ x ∈ before, winner (readCalendar (List.range 64) p).1 i x = none)
    (first : winner (readCalendar (List.range 64) p).1 i b = some e) :
    catchUpSlot (before ++ b :: after) p i = requestStart { slot := i, showIx := e.showIx, source := .calendar, rank := e.rank
                                                            hour := some b.hour, trigger := p.lineTime } p := by
  have reads : (readCalendar (List.range 64) p).2 = p := readCalendar_clean clean fun _ => List.mem_range.mp
  have searched : searchSlot i (before ++ b :: after) p = (some (b, e), p) := by
    rw [searchSlot_clean clean _ none, searchSlot, first]
    dsimp only
    rw [reads]
  rw [catchUpSlot, searched]
  dsimp only
  rw [handWinner, calendarRequest, winner_slot first]

end

/-! ## No latch and no report is lost on the way to a start (R108, R112) -/

theorem foldl_told {α : Type} (f : Part → α → Part) (as : List α) (p : Part) (h : ∀ q a, Told q (f q a)) :
    Told p (as.foldl f p) := by
  induction as generalizing p with
  | nil => exact Told.refl p
  | cons a rest ih => exact (h p a).trans (ih (f p a))

theorem setFigure_told (k : FigIx) (f : LiveFigure → LiveFigure) (p : Part) : Told p (setFigure k f p) := told_of_same rfl
theorem setSlot_told (i : SlotIx) (f : Slot → Slot) (p : Part) : Told p (setSlot i f p) := told_of_same rfl

theorem readFigure_told (k : FigIx) (o : List Nat) (p : Part) : Told p (readFigure k o p).2 := by
  obtain ⟨q, noted, h | ⟨rec, h⟩⟩ := readFigure_frame k o p
  · rw [h]; exact noted.told
  · rw [h]; exact noted.told.trans (setFigure_told _ _ _)

theorem retarget_told (k : FigIx) (owner : Option SlotIx) (drive : Option Drive) (p : Part) :
    Told p (retarget k owner drive p) := by
  have first := setFigure_told k (fun g => { g with owner := owner, drive := drive }) p
  unfold retarget
  dsimp only
  split
  · exact (first.trans (readFigure_told _ _ _)).trans (setFigure_told _ _ _)
  · exact first
  · exact first
  · exact first.trans (setFigure_told _ _ _)
  · exact first.trans (setFigure_told _ _ _)
  · exact first
  · exact first
  · exact first

theorem handRetarget_told (before : Bank (Option SlotIx) 16) (k : FigIx) (p : Part) : Told p (handRetarget before k p) := by
  unfold handRetarget
  dsimp only
  split
  · exact Told.refl p
  · exact retarget_told _ _ _ p

theorem withdrawLost_told (before : Bank (Option SlotIx) 48) (p : Part) : Told p (withdrawLost before p) :=
  (removeStrikes_struck (·.lost before p.bellOwner) p).toTold

theorem handRetargets_told (before : Bank (Option SlotIx) 16) (p : Part) :
    Told p (allFigures.foldl (fun x k => handRetarget before k x) p) :=
  foldl_told _ _ _ fun q k => handRetarget_told before k q

theorem setOwners_told (bells : Bank (Option SlotIx) 48) (figures : Bank (Option SlotIx) 16) (p : Part) :
    Told p { p with bellOwner := bells, figOwner := figures } := told_of_same rfl

theorem reowned_told (p : Part) : Told p (reowned p) := setOwners_told _ _ p

theorem recompute_told (p : Part) : Told p (recompute p) := by
  rw [recompute_eq]
  exact ((reowned_told p).trans (withdrawLost_told _ _)).trans (handRetargets_told _ _)

theorem resolveItems_told (items : List FigureItem) (is : List (Fin 8 × FigIx)) (listed : List (FigIx × Drive)) (p : Part) :
    Told p (resolveItems items is listed p).2 := by
  induction is generalizing listed p with
  | nil => exact Told.refl p
  | cons x rest ih =>
    unfold resolveItems
    dsimp only
    split <;> exact (readFigure_told _ _ _).trans (ih _ _)

theorem setContext_told (i : SlotIx) (f : BarrelContext → BarrelContext) (p : Part) : Told p (setContext i f p) :=
  told_of_same rfl

theorem startShow_told (slot : SlotIx) (k : ShowIx) (source : StartSource) (rank reps : Nat) (c : CheckedShow) (p : Part) :
    Told p (startShow slot k source rank reps c p) := by
  have resolved := resolveItems_told c.copy.items (governingItems c.copy.items) [] p
  have begun : Told p (begunShow slot k source rank reps c p) := by
    unfold begunShow
    exact (((resolved.trans (setSlot_told _ _ _)).trans (recompute_told _)).trans (setContext_told _ _ _)).trans
      (latchEvent_noted _ _).told
  rw [startShow_eq]
  exact begun.trans (readDueSteps_told _ _)

theorem idleSlot_told (slot : SlotIx) (p : Part) : Told p (idleSlot slot p) :=
  ((setSlot_told _ _ p).trans (setContext_told _ _ _)).trans (recompute_told _)

theorem replaceShow_told (slot : SlotIx) (k : ShowIx) (source : StartSource) (rank reps : Nat) (c : CheckedShow) (p : Part) :
    Told p (replaceShow slot k source rank reps c p) :=
  (idleSlot_told slot p).trans (startShow_told _ _ _ _ _ _ _)

theorem attemptStart_told (r : StartRequest) (start : Nat → CheckedShow → Part → Part) (p : Part)
    (h : ∀ reps c q, Told q (start reps c q)) : Told p (attemptStart r start p) := by
  have checked : Told p (checkShow r.showIx p).2 := (checkShow_noted r.showIx p).told
  unfold attemptStart
  dsimp only
  split
  · exact checked.trans (loseStart_noted _).told
  · split
    · exact checked.trans (loseStart_noted _).told
    · exact checked.trans (h _ _ _)

theorem becomePending_told (r : StartRequest) (p : Part) : Told p (becomePending r p) := by
  unfold becomePending
  dsimp only
  split
  · exact (loseStart_noted p).told.trans (setSlot_told _ _ _)
  · exact setSlot_told _ _ _

theorem requestStart_told (r : StartRequest) (p : Part) : Told p (requestStart r p) := by
  unfold requestStart
  split
  · exact (loseStart_noted p).told
  · split
    · exact attemptStart_told _ _ _ fun _ _ _ => startShow_told _ _ _ _ _ _ _
    · split
      · exact attemptStart_told _ _ _ fun _ _ _ => replaceShow_told _ _ _ _ _ _ _
      · exact becomePending_told _ _

theorem catchUpSlot_told (bs : List DateTime) (p : Part) (i : SlotIx) : Told p (catchUpSlot bs p i) := by
  have searched : Told p (searchSlot i bs p).2 := (searchSlot_noted _ _ p).told
  unfold catchUpSlot
  dsimp only
  split
  · exact searched
  · exact searched.trans (requestStart_told _ _)

/-! ## TIME frames (R4 to R9) -/

section
variable {p : Part} {e : IntakeEntry} {rest : List IntakeEntry}

theorem takeTimeFrame_other (front : p.filter.calendar.entries = e :: rest)
    (other : ¬ (e.frame.kind = Kind.time ∧ e.frame.payload.length = 9)) :
    takeTimeFrame p = rejectTime (setCalendarIntake (fun q => { q with rejected := some e.hit })
      (setCalendarIntake (fun q => { q with entries := rest }) p)) := by
  rw [takeTimeFrame, front]
  refine if_pos ?_
  rw [Bool.or_eq_true, decide_eq_true_iff, decide_eq_true_iff]
  exact not_and_or.mp other

theorem takeTimeFrame_time (front : p.filter.calendar.entries = e :: rest)
    (good : e.frame.kind = Kind.time ∧ e.frame.payload.length = 9) : takeTimeFrame p =
      if (timeOfPayload e.frame).possible then
        useTime ((timeOfPayload e.frame).later (p.lineTime - e.stamp)) (setCalendarIntake (fun q => { q with entries := rest }) p)
      else rejectTime (setCalendarIntake (fun q => { q with entries := rest }) p) := by
  rw [takeTimeFrame, front]
  refine if_neg ?_
  rw [Bool.or_eq_true, decide_eq_true_iff, decide_eq_true_iff]
  exact not_or.mpr ⟨not_not.mpr good.1, not_not.mpr good.2⟩

end

section
variable {t : DateTime} {p : Part}

theorem useTime_unset (h : p.cal.clockState = .unset) : useTime t p = setClock t p := by
  rw [useTime, h]

/-- R7: a SET clock is slewed when it is found near, and else stepped. -/
theorem useTime_set (h : p.cal.clockState = .set) : useTime t p =
    if ((t.millis : Int) - (p.cal.clock.millis : Int)).natAbs ≤ 2000 then
      setCal (fun c => { c with slew := (t.millis : Int) - (p.cal.clock.millis : Int) }) p
    else stepClock t ((t.millis : Int) - (p.cal.clock.millis : Int)) p := by
  rw [useTime, h]

theorem stepClock_back {d : Int} (h : d < -2000) :
    stepClock t d p = latchEvent 21 (setCal (fun c => { c with clock := t, slew := 0 }) p) :=
  if_neg (by omega)

/-- R9, R12: a step forward, its catch-up and the stamp it leaves. -/
theorem stepClock_forward {d : Int} (h : 0 < d) :
    let bs := skippedBoundaries p.cal.stamp t.millis p.settings.catchUp
    let stepped := latchEvent 21 (setCal (fun c => { c with clock := t, slew := 0 }) p)
    let q := catchUpSlot bs (catchUpSlot bs (catchUpSlot bs stepped 0) 1) 2
    stepClock t d p = { q with cal := { p.cal with
      clock := t, slew := 0
      stamp := if afterStamp p.cal.stamp t.floorMinute then some t.floorMinute else p.cal.stamp } } := by
  intro bs stepped q
  have noted := latchEvent_noted 21 (setCal (fun c => { c with clock := t, slew := 0 }) p)
  have cal : stepped.cal = { p.cal with clock := t, slew := 0 } := noted.cal
  have settings : stepped.settings = p.settings := noted.settings
  have caught : q.cal = { p.cal with clock := t, slew := 0 } := (catchUpSlots_grounded bs stepped).cal.trans cal
  have forward : stepClock t d p = catchUp stepped := if_pos h
  rw [forward, catchUp]
  dsimp only
  rw [cal, settings]
  change setCal (fun c => { c with stamp := raisedStamp c.stamp c.clock }) q = _
  rw [setCal, caught]
  rfl

end

/-- Settles O18. -/
theorem timeFrameSetsSlewsOrSteps : Obligations.TimeFrameSetsSlewsOrSteps := by
  refine ⟨fun s e rest running front => ?_, fun stamp now window h => ⟨mem_skippedBoundaries h, skippedBoundaries_pairwise h⟩,
    fun bs i p clean => ⟨catchUpSlot_none clean, ?_⟩⟩
  · intro p t d good
    have takes : exec .timeFrameTaken s = .next (s.withPart (takeTimeFrame s.part)) := run_running _ s running
    refine ⟨fun other => ?_, fun good impossible => ?_, fun good possible => ?_⟩
    · rw [takes, takeTimeFrame_other front other]
      rfl
    · rw [takes, takeTimeFrame_time front good, if_neg (by rw [impossible]; exact Bool.false_ne_true)]
      rfl
    · rw [takes, takeTimeFrame_time front good, if_pos possible]
      have set : s.part.cal.clockState = .set → useTime t p = if d.natAbs ≤ 2000 then setCal (fun c => { c with slew := d }) p
          else stepClock t d p := fun h => useTime_set (p := p) h
      refine ⟨fun unset => ?_, fun isSet near => ?_, fun isSet back => ?_, fun isSet forward => ?_⟩
      · exact congrArg (fun q => Host.Outcome.next (s.withPart q)) (useTime_unset (t := t) (p := p) unset)
      · exact congrArg (fun q => Host.Outcome.next (s.withPart q)) ((set isSet).trans (if_pos near))
      · exact congrArg (fun q => Host.Outcome.next (s.withPart q))
          (((set isSet).trans (if_neg (by omega))).trans (stepClock_back back))
      · intro bs stepped q
        have grounded : Grounded stepped q := catchUpSlots_grounded bs stepped
        have noted := latchEvent_noted 21 (setCal (fun c => { c with clock := t, slew := 0 }) p)
        refine ⟨?_, ?_, grounded.words.trans noted.words, grounded.filter.trans noted.filter⟩
        · exact congrArg (fun q => Host.Outcome.next (s.withPart q))
            (((set isSet).trans (if_neg (by omega))).trans (stepClock_forward (by omega)))
        · have told : Told stepped q := foldl_told (catchUpSlot bs) allSlots stepped (catchUpSlot_told bs)
          exact told.latched 21 (member_latchEvent (by decide) _)
  · rintro before b after e rfl none first
    exact catchUpSlot_first clean none first

end Sys2Proof.Machine
end

section
/-! The figures a show lists (R25, R40): the items that govern figures and the twins they imply. -/

namespace Sys2Proof.Machine

/-! ## Lists of keys -/

theorem pairwise_zip_fst {α β : Type} {R : α → α → Prop} {as : List α} (h : as.Pairwise R) (bs : List β) :
    (as.zip bs).Pairwise fun x y => R x.1 y.1 := by
  induction as generalizing bs with
  | nil => exact List.Pairwise.nil
  | cons a rest ih =>
    cases bs with
    | nil => exact List.Pairwise.nil
    | cons b more =>
      obtain ⟨first, later⟩ := List.pairwise_cons.mp h
      refine List.pairwise_cons.mpr ⟨fun z hz => first z.1 (List.of_mem_zip hz).1, ih later more⟩

/-- In a list in which a key stands with one value only, its lookup finds that value. -/
theorem lookup_iff_mem {α β : Type} [BEq α] [LawfulBEq α] {l : List (α × β)} {x : α} {d : β}
    (only : ∀ d', (x, d') ∈ l → (x, d) ∈ l → d' = d) : l.lookup x = some d ↔ (x, d) ∈ l := by
  constructor
  · intro found
    obtain ⟨before, after, rfl, -⟩ := List.lookup_eq_some_iff.mp found
    simp
  · intro mem
    cases found : l.lookup x with
    | none => exact absurd (List.lookup_eq_none_iff.mp found (x, d) mem) (by simp)
    | some d' =>
      obtain ⟨before, after, rfl, -⟩ := List.lookup_eq_some_iff.mp found
      rw [only d' (by simp) mem]

/-! ## The items that govern (R25) -/

/-- Item `n` names figure `x`. -/
def names (items : List FigureItem) (n : Fin 8) (x : FigIx) : Prop := ∃ item, items[n.val]? = some item ∧ item.figure = x

/-- R25: item `n` governs figure `x`, which no earlier item names. -/
def governs (items : List FigureItem) (n : Fin 8) (x : FigIx) : Prop := names items n x ∧ ∀ m, m < n → ¬ names items m x

theorem mem_zip_items {items : List FigureItem} {n : Fin 8} {it : FigureItem} :
    (n, it) ∈ (List.finRange 8).zip items ↔ items[n.val]? = some it := by
  rw [List.mem_iff_getElem?]
  constructor
  · rintro ⟨j, found⟩
    obtain ⟨index, item⟩ := List.getElem?_zip_eq_some.mp found
    obtain ⟨lt, rfl⟩ := List.getElem?_eq_some_iff.mp index
    simpa using item
  · intro item
    refine ⟨n.val, List.getElem?_zip_eq_some.mpr ⟨?_, item⟩⟩
    simp

theorem named_before_iff {items : List FigureItem} {n : Fin 8} {x : FigIx} :
    ((items.take n.val).any fun e => e.figure = x) = true ↔ ∃ m, m < n ∧ names items m x := by
  rw [List.any_eq_true]
  constructor
  · rintro ⟨it, mem, own⟩
    obtain ⟨j, found⟩ := List.mem_iff_getElem?.mp mem
    rw [List.getElem?_take] at found
    split at found
    · next less => exact ⟨⟨j, less.trans n.isLt⟩, less, it, found, of_decide_eq_true own⟩
    · cases found
  · rintro ⟨m, less, it, found, own⟩
    refine ⟨it, List.mem_iff_getElem?.mpr ⟨m.val, ?_⟩, decide_eq_true own⟩
    rw [List.getElem?_take, if_pos (show m.val < n.val from less), found]

theorem mem_governingItems {items : List FigureItem} {n : Fin 8} {x : FigIx} :
    (n, x) ∈ governingItems items ↔ governs items n x := by
  simp only [governingItems, List.mem_filterMap, Prod.exists, mem_zip_items]
  constructor
  · rintro ⟨i, it, found, kept⟩
    split at kept
    · cases kept
    next free =>
      obtain ⟨rfl, rfl⟩ := Prod.mk.inj (Option.some.inj kept)
      exact ⟨⟨it, found, rfl⟩, fun m less named => free (named_before_iff.mpr ⟨m, less, named⟩)⟩
  · rintro ⟨⟨it, found, rfl⟩, first⟩
    refine ⟨n, it, found, if_neg fun named => ?_⟩
    obtain ⟨m, less, named⟩ := named_before_iff.mp named
    exact first m less named

theorem governingItems_pairwise (items : List FigureItem) : (governingItems items).Pairwise fun a b => a.1 < b.1 := by
  unfold governingItems
  refine List.pairwise_filterMap.mpr ((pairwise_zip_fst (List.pairwise_lt_finRange 8) items).imp ?_)
  rintro ⟨i, a⟩ ⟨j, b⟩ less x hx y hy
  dsimp only at hx hy
  split at hx
  · cases hx
  · split at hy
    · cases hy
    · rw [← Option.some.inj hx, ← Option.some.inj hy]
      exact less

theorem governs_unique {items : List FigureItem} {n m : Fin 8} {x : FigIx} (hn : governs items n x) (hm : governs items m x) :
    n = m := by
  rcases lt_trichotomy n m with less | same | more
  · exact absurd hn.1 (hm.2 n less)
  · exact same
  · exact absurd hm.1 (hn.2 m more)

/-! ## The twins they imply (R40) -/

/-- The twin named by the record of figure `k`. -/
def twinOf (p : Part) (k : FigIx) : Option FigIx := (readFigure k figureTwinWords p).1.bind FigureRecord.twin

theorem twinOf_congr {p q : Part} (words : q.table.words = p.table.words) (k : FigIx) : twinOf q k = twinOf p k := by
  rw [twinOf, readFigure_fst_congr words]
  rfl

/-- R40: the twins listed for the items done, `twin` telling the records' twins. -/
def addTwin (twin : FigIx → Option FigIx) (items : List FigureItem) (i : Fin 8) (k : FigIx) (listed : List (FigIx × Drive)) :
    List (FigIx × Drive) :=
  match twin k with
  | none => []
  | some t => if t = k || items.any (fun e => e.figure = t) || listed.any (fun e => e.1 = t) then []
      else [(t, { item := i, role := .twin })]

/-- R40: the list that the items of `is` make, one after another. -/
def listFigures (twin : FigIx → Option FigIx) (items : List FigureItem) :
    List (Fin 8 × FigIx) → List (FigIx × Drive) → List (FigIx × Drive)
  | [], listed => listed
  | (i, k) :: rest, listed =>
    listFigures twin items rest (listed ++ [(k, { item := i, role := .item })] ++ addTwin twin items i k listed)

theorem resolveItems_fst (items : List FigureItem) (is : List (Fin 8 × FigIx)) (listed : List (FigIx × Drive)) (p : Part) :
    (resolveItems items is listed p).1 = listFigures (twinOf p) items is listed := by
  have told : ∀ q : Part, q.table.words = p.table.words →
      (resolveItems items is listed q).1 = listFigures (twinOf p) items is listed := by
    induction is generalizing listed with
    | nil => exact fun _ _ => rfl
    | cons x rest ih =>
      intro q words
      obtain ⟨i, k⟩ := x
      have later := fun l => ih l (readFigure k figureTwinWords q).2 ((readFigure_carried k _ q).words.trans words)
      have twin := twinOf_congr words k
      rw [listFigures, addTwin, ← twin, twinOf, resolveItems, impliedTwin]
      cases (readFigure k figureTwinWords q).1.bind FigureRecord.twin with
      | none =>
        rw [later, List.append_nil]
      | some t =>
        dsimp only
        by_cases skips : (t = k || items.any (fun e => e.figure = t) || listed.any (fun e => e.1 = t)) = true
        · rw [if_pos skips, if_pos skips, List.append_nil]
          exact later _
        · rw [if_neg skips, if_neg skips]
          exact later _
  exact told p rfl

/-- R40: an item of `is` implies the twin `x`. -/
def implied (twin : FigIx → Option FigIx) (is : List (Fin 8 × FigIx)) (n : Fin 8) (x : FigIx) : Prop :=
  ∃ own, (n, own) ∈ is ∧ twin own = some x ∧ x ≠ own

/-- R40: figure `x` stands in the list of the items `is` with the drive `d`. -/
def listsFor (twin : FigIx → Option FigIx) (items : List FigureItem) (is : List (Fin 8 × FigIx)) (x : FigIx) (d : Drive) : Prop :=
  d.role = .item ∧ (d.item, x) ∈ is ∨
  d.role = .twin ∧ (∀ e ∈ items, e.figure ≠ x) ∧ implied twin is d.item x ∧ ∀ n, n < d.item → ¬ implied twin is n x

section
variable {twin : FigIx → Option FigIx} {items : List FigureItem} {is : List (Fin 8 × FigIx)} {i : Fin 8} {k x : FigIx}
  {listed : List (FigIx × Drive)}

theorem implied_append {n : Fin 8} : implied twin (is ++ [(i, k)]) n x ↔
    implied twin is n x ∨ n = i ∧ twin k = some x ∧ x ≠ k := by
  simp only [implied, List.mem_append, List.mem_singleton, Prod.mk.injEq]
  constructor
  · rintro ⟨own, mem | ⟨rfl, rfl⟩, twin, other⟩
    · exact .inl ⟨own, mem, twin, other⟩
    · exact .inr ⟨rfl, twin, other⟩
  · rintro (⟨own, mem, twin, other⟩ | ⟨rfl, twin, other⟩)
    · exact ⟨own, .inl mem, twin, other⟩
    · exact ⟨k, .inr ⟨rfl, rfl⟩, twin, other⟩

theorem mem_addTwin {d : Drive} : (x, d) ∈ addTwin twin items i k listed ↔
    d = { item := i, role := .twin } ∧ twin k = some x ∧ x ≠ k ∧ (∀ e ∈ items, e.figure ≠ x) ∧ ∀ d', (x, d') ∉ listed := by
  unfold addTwin
  cases same : twin k with
  | none => simp
  | some t =>
    dsimp only
    have skips : (t = k || items.any (fun e => e.figure = t) || listed.any (fun e => e.1 = t)) = true ↔
        t = k ∨ (∃ e ∈ items, e.figure = t) ∨ ∃ d', (t, d') ∈ listed := by
      simp [or_assoc]
    constructor
    · intro mem
      split at mem
      · cases mem
      next fits =>
        obtain ⟨rfl, rfl⟩ := Prod.mk.inj (List.mem_singleton.mp mem)
        rw [skips] at fits
        simp only [not_or, not_exists, not_and] at fits
        exact ⟨rfl, rfl, fits.1, fits.2.1, fits.2.2⟩
    · rintro ⟨rfl, own, other, unnamed, fresh⟩
      obtain rfl := Option.some.inj own
      refine (if_neg ?_ : _ = _) ▸ List.mem_singleton.mpr rfl
      rw [skips]
      rintro (same | ⟨e, he, named⟩ | ⟨d', mem⟩)
      · exact other same
      · exact unnamed e he named
      · exact fresh d' mem

/-- R40: one more item, of a higher index than all before it. -/
theorem listsFor_append (h : ∀ x d, (x, d) ∈ listed ↔ listsFor twin items is x d) (last : ∀ e ∈ is, e.1 < i)
    (named : ∀ e ∈ is, ∃ it ∈ items, it.figure = e.2) (x : FigIx) (d : Drive) :
    (x, d) ∈ listed ++ [(k, { item := i, role := .item })] ++ addTwin twin items i k listed ↔
      listsFor twin items (is ++ [(i, k)]) x d := by
  have before : ∀ n, implied twin is n x → n < i := fun n ⟨own, mem, _⟩ => last _ mem
  have least : (∃ n, implied twin is n x) → (∀ e ∈ items, e.figure ≠ x) → ∃ d', (x, d') ∈ listed := by
    intro some unnamed
    obtain ⟨n, first, fewest⟩ := (wellFounded_lt (α := Fin 8)).has_min {n | implied twin is n x} some
    exact ⟨{ item := n, role := .twin }, (h x _).mpr (.inr ⟨rfl, unnamed, first, fun m less own => fewest m own less⟩)⟩
  simp only [List.mem_append, List.mem_singleton, Prod.mk.injEq, mem_addTwin, h]
  obtain ⟨n, role⟩ := d
  cases role with
  | item => simp [listsFor, List.mem_append, and_comm]
  | twin =>
    simp only [listsFor, implied_append, reduceCtorEq, false_and, false_or, true_and, Drive.mk.injEq, and_false, or_false, and_true]
    constructor
    · rintro (⟨unnamed, own, first⟩ | ⟨rfl, twin', other, unnamed, fresh⟩)
      · refine ⟨unnamed, .inl own, fun m less => ?_⟩
        rintro (earlier | ⟨rfl, -, -⟩)
        · exact first m less earlier
        · exact absurd (less.trans (before n own)) (lt_irrefl _)
      · refine ⟨unnamed, .inr ⟨rfl, twin', other⟩, fun m less => ?_⟩
        rintro (earlier | ⟨rfl, -, -⟩)
        · obtain ⟨d', mem⟩ := least ⟨m, earlier⟩ unnamed
          exact fresh d' ((h x d').mp mem)
        · exact lt_irrefl _ less
    · rintro ⟨unnamed, own | ⟨rfl, twin', other⟩, first⟩
      · exact .inl ⟨unnamed, own, fun m less earlier => first m less (.inl earlier)⟩
      · refine .inr ⟨rfl, twin', other, unnamed, fun d' mem => ?_⟩
        rcases mem with ⟨-, mem⟩ | ⟨-, -, earlier, -⟩
        · obtain ⟨it, hit, own⟩ := named _ mem
          exact unnamed it hit own
        · exact first d'.item (before _ earlier) (.inl earlier)

theorem mem_listFigures (rest : List (Fin 8 × FigIx)) (h : ∀ x d, (x, d) ∈ listed ↔ listsFor twin items is x d)
    (sorted : (is ++ rest).Pairwise fun a b => a.1 < b.1) (named : ∀ e ∈ is ++ rest, ∃ it ∈ items, it.figure = e.2)
    (x : FigIx) (d : Drive) : (x, d) ∈ listFigures twin items rest listed ↔ listsFor twin items (is ++ rest) x d := by
  induction rest generalizing listed is with
  | nil => rw [List.append_nil]; exact h x d
  | cons e rest ih =>
    obtain ⟨i, k⟩ := e
    have assoc : is ++ (i, k) :: rest = (is ++ [(i, k)]) ++ rest := by simp
    rw [listFigures, assoc]
    refine ih (listsFor_append h (fun e he => ?_) fun e he => named e (List.mem_append_left _ he)) (assoc ▸ sorted) (assoc ▸ named)
    exact (List.pairwise_append.mp sorted).2.2 e he (i, k) List.mem_cons_self

end

theorem mem_items_iff {items : List FigureItem} (few : items.length ≤ 8) {x : FigIx} :
    (∃ it ∈ items, it.figure = x) ↔ ∃ n, names items n x := by
  constructor
  · rintro ⟨it, mem, own⟩
    obtain ⟨j, found⟩ := List.mem_iff_getElem?.mp mem
    obtain ⟨less, -⟩ := List.getElem?_eq_some_iff.mp found
    exact ⟨⟨j, less.trans_le few⟩, it, found, own⟩
  · rintro ⟨n, it, found, own⟩
    exact ⟨it, List.mem_iff_getElem?.mpr ⟨n.val, found⟩, own⟩

/-- R25, R40: the list of figures of a show of at most eight items. -/
theorem lookup_listFigures {twin : FigIx → Option FigIx} {items : List FigureItem} (few : items.length ≤ 8) (x : FigIx) (d : Drive) :
    (listFigures twin items (governingItems items) []).lookup x = some d ↔
      d.role = .item ∧ governs items d.item x ∨
      d.role = .twin ∧ (∀ n, ¬ names items n x) ∧ (∃ own, governs items d.item own ∧ twin own = some x ∧ x ≠ own) ∧
        ∀ n, n < d.item → ¬ ∃ own, governs items n own ∧ twin own = some x ∧ x ≠ own := by
  have named : ∀ e ∈ governingItems items, ∃ it ∈ items, it.figure = e.2 := fun e he =>
    (mem_items_iff few).mpr ⟨e.1, (mem_governingItems.mp he).1⟩
  have mem := mem_listFigures (twin := twin) (items := items) (is := []) (listed := []) (governingItems items)
    (fun x d => by simp [listsFor, implied]) (governingItems_pairwise items) named
  have told : ∀ d, (x, d) ∈ listFigures twin items (governingItems items) [] ↔
      d.role = .item ∧ governs items d.item x ∨
      d.role = .twin ∧ (∀ n, ¬ names items n x) ∧ (∃ own, governs items d.item own ∧ twin own = some x ∧ x ≠ own) ∧
        ∀ n, n < d.item → ¬ ∃ own, governs items n own ∧ twin own = some x ∧ x ≠ own := by
    intro d
    have unnamed : (∀ e ∈ items, e.figure ≠ x) ↔ ∀ n, ¬ names items n x := by
      rw [← not_exists, ← mem_items_iff few]
      simp
    rw [mem, List.nil_append, listsFor, unnamed]
    simp only [implied, mem_governingItems]
  rw [← told]
  refine lookup_iff_mem fun d' mem' mem => ?_
  obtain ⟨n', role'⟩ := d'
  obtain ⟨n, role⟩ := d
  rcases (told _).mp mem' with ⟨role', own'⟩ | ⟨role', unnamed', own', first'⟩ <;>
    rcases (told _).mp mem with ⟨role, own⟩ | ⟨role, unnamed, own, first⟩ <;> dsimp only at * <;> subst role' <;> subst role
  · rw [governs_unique own' own]
  · exact absurd own'.1 (unnamed _)
  · exact absurd own.1 (unnamed' _)
  · rcases lt_trichotomy n' n with less | rfl | more
    · exact absurd own' (first n' less)
    · rfl
    · exact absurd own (first' n more)

end Sys2Proof.Machine
end

section
/-! SHOW START (R26 to R30): the show is checked, the slot filled and its barrel context prepared. -/

namespace Sys2Proof.Machine

/-! ## What a show that passes its checks has (R25, R26, R44) -/

theorem allOf_eq_some {ws : List Word} {l : List (Option Word)} : allOf l = some ws ↔ l = ws.map some := by
  induction l generalizing ws with
  | nil => cases ws <;> simp [allOf]
  | cons a rest ih =>
    cases a with
    | none => cases ws <;> simp [allOf]
    | some w =>
      cases ws with
      | nil => simp [allOf]
      | cons v more => simp [allOf, ih, and_comm]

theorem checkBarrel_none {p : Part} {b : Option (BarrelHeader × List Nat)} (h : (checkBarrel 0 p).1 = .ok b) : b = none := by
  rw [checkBarrel, if_pos rfl] at h
  exact (Except.ok.inj h).symm

/-- R44: a barrel that passes its checks has its header and its row map as they stand in the table. -/
theorem checkBarrel_some {p : Part} {pointer : Nat} {b : Option (BarrelHeader × List Nat)} (some_ : pointer ≠ 0)
    (h : (checkBarrel pointer p).1 = .ok b) : ∃ header ws, b = some (header, rowMapOf header.rows ws) ∧
      (readRecord .barrel pointer [0, 1] p).1.map barrelHeader = some header ∧
      (readEach .barrel ((List.range header.mapWords).map (pointer + 2 + ·)) p).1 = ws.map some := by
  have words := (readRecord_noted .barrel pointer [0, 1] p).words
  rw [checkBarrel, if_neg some_] at h
  split at h
  · cases h
  · dsimp only at h
    split at h
    · cases h
    next w header =>
      split at h
      · cases h
      · split at h
        · cases h
        next ws read =>
          refine ⟨barrelHeader w, ws, (Except.ok.inj h).symm, by rw [header]; rfl, ?_⟩
          rw [← allOf_eq_some, ← read, readEach_fst_congr words .barrel .barrel]

/-- R25, R26: the parts of a show that passes its checks. -/
theorem checkShow_ok {k : ShowIx} {p : Part} {c : CheckedShow} (h : (checkShow k p).1 = .ok c) :
    c.copy.items.length ≤ 8 ∧ ∃ q, Noted p q ∧ (checkBarrel c.copy.barrel q).1 = .ok c.barrel := by
  have noted := readEntry_noted k p
  rw [checkShow] at h
  dsimp only at h
  split at h
  · cases h
  · split at h
    · cases h
    · split at h
      · cases h
      · split at h
        · cases h
        next ws _ barrel ok =>
          split at h
          · cases h
          · obtain rfl := Except.ok.inj h
            refine ⟨?_, _, noted, ok⟩
            simp only [showCopy, List.length_map, List.length_range, itemCount]
            exact Nat.min_le_right _ _

/-- R44: a row map of words of four bytes. -/
theorem getElem?_rowBytes (ws : List Word) (n : Nat) :
    (ws.flatMap fun w => (List.range 4).map (byteAt w))[n]? = ws[n / 4]?.map (byteAt · (n % 4)) := by
  induction ws generalizing n with
  | nil => rfl
  | cons w rest ih =>
    rw [List.flatMap_cons]
    by_cases low : n < 4
    · rw [List.getElem?_append_left (by simpa using low), Nat.div_eq_of_lt low, Nat.mod_eq_of_lt low]
      simp [low]
    · obtain ⟨m, rfl⟩ : ∃ m, n = m + 4 := ⟨n - 4, by omega⟩
      rw [List.getElem?_append_right (by simp), show (m + 4) / 4 = m / 4 + 1 by omega, show (m + 4) % 4 = m % 4 by omega,
        List.getElem?_cons_succ]
      simpa using ih m

theorem length_rowBytes (ws : List Word) : (ws.flatMap fun w => (List.range 4).map (byteAt w)).length = 4 * ws.length := by
  induction ws with
  | nil => rfl
  | cons w rest ih =>
    rw [List.flatMap_cons, List.length_append, ih, List.length_map, List.length_range, List.length_cons]
    omega

/-- R44: the row map of a header, taken from the words that hold it. -/
theorem rowMapOf_spec {h : BarrelHeader} {ws : List Word} {p : Part} {base : Nat}
    (read : (readEach .barrel ((List.range h.mapWords).map (base + ·)) p).1 = ws.map some) :
    (rowMapOf h.rows ws).length = h.rows ∧
      ∀ n, n < h.rows → (readWord .barrel (base + n / 4) p).1.map (byteAt · (n % 4)) = (rowMapOf h.rows ws)[n]? := by
  rw [readEach_fst, List.map_map] at read
  have count : ws.length = h.mapWords := by
    have := congrArg List.length read
    simpa using this.symm
  have enough : h.rows ≤ 4 * ws.length := by
    rw [count, BarrelHeader.mapWords, ceilDiv]
    omega
  refine ⟨by rw [rowMapOf, List.length_take, length_rowBytes]; omega, fun n less => ?_⟩
  have inside : n / 4 < h.mapWords := by omega
  have word := congrArg (fun l => l[n / 4]?) read
  simp only [List.getElem?_map, List.getElem?_range inside, Option.map_some, Function.comp] at word
  rw [rowMapOf, List.getElem?_take, if_pos less, getElem?_rowBytes]
  cases found : ws[n / 4]? with
  | none => rw [found] at word; cases word
  | some w => rw [found] at word; rw [Option.some.inj word]

/-! ## The contexts at a start (R46, R47) -/

theorem idleSlot_contexts (slot : SlotIx) (p : Part) :
    (idleSlot slot p).contexts = p.contexts.update slot fun _ => BarrelContext.initial := by
  rw [idleSlot, (recompute_carried _).contexts]
  rfl

theorem begunShow_contexts (slot : SlotIx) (k : ShowIx) (source : StartSource) (rank reps : Nat) (c : CheckedShow) (p : Part) :
    (begunShow slot k source rank reps c p).contexts = p.contexts.update slot fun _ => contextOf c := by
  have resolved := (resolveItems_carried c.copy.items (governingItems c.copy.items) [] p).contexts
  unfold begunShow
  dsimp only
  rw [(latchEvent_noted _ _).contexts, setContext_contexts, (recompute_carried _).contexts, setSlot_contexts, resolved]

theorem begunShow_grounded (slot : SlotIx) (k : ShowIx) (source : StartSource) (rank reps : Nat) (c : CheckedShow) (p : Part) :
    Grounded p (begunShow slot k source rank reps c p) :=
  ((((resolveItems_carried _ _ _ p).grounded.trans (setSlot_grounded _ _ _)).trans (recompute_grounded _)).trans
    (setContext_grounded _ _ _)).trans (latchEvent_noted _ _).grounded

/-- R30, R31: the part at which a request's show starts: a busy slot is made IDLE first. -/
def clearedSlot (slot : SlotIx) (p : Part) : Part := if (p.slots.read slot).busy then idleSlot slot p else p

theorem clearedSlot_grounded (slot : SlotIx) (p : Part) : Grounded p (clearedSlot slot p) := by
  unfold clearedSlot
  split
  · exact idleSlot_grounded slot p
  · exact Grounded.refl p

theorem clearedSlot_others (slot : SlotIx) (p : Part) : ∀ i, i ≠ slot →
    (clearedSlot slot p).slots.read i = p.slots.read i ∧ (clearedSlot slot p).contexts.read i = p.contexts.read i := by
  intro i hi
  unfold clearedSlot
  split
  · rw [idleSlot_slots, idleSlot_contexts, Bank.read_update_ne _ _ _ _ hi, Bank.read_update_ne _ _ _ _ hi]
    exact ⟨rfl, rfl⟩
  · exact ⟨rfl, rfl⟩

theorem clearedSlot_waiting (slot : SlotIx) (p : Part) :
    ((clearedSlot slot p).slots.read slot).waiting = (p.slots.read slot).waiting := by
  unfold clearedSlot
  split
  · rw [idleSlot_slots, Bank.read_update_self]
  · rfl

/-! ## The request (R30) -/

section
variable {e : IntakeEntry} {i : SlotIx} {k : ShowIx} {p : Part}

theorem showStartRequest_beyond (h : 3 ≤ e.frame.arg 1 ∨ 32 ≤ e.frame.arg 2) : showStartRequest e p = answer e .range [] p := by
  rw [showStartRequest]
  rcases h with h | h
  · rw [index?_beyond h]
  · rw [index?_beyond h]
    cases index? 3 (e.frame.arg 1) <;> rfl

theorem showStartRequest_named (hi : e.frame.arg 1 = i.val) (hk : e.frame.arg 2 = k.val) : showStartRequest e p =
    if allStopAsserted p then answer e .state [] p
    else if (p.slots.read i).busy && e.frame.arg 3 = 0 then answer e .busy [] p
    else judgeShowStart e i k p := by
  rw [showStartRequest, hi, hk, index?_val, index?_val]

/-- R30: a start that is neither stopped nor refused BUSY is judged. -/
theorem showStartRequest_judged (hi : e.frame.arg 1 = i.val) (hk : e.frame.arg 2 = k.val) (free : allStopAsserted p = false)
    (open_ : (p.slots.read i).state = .idle ∨ e.frame.arg 3 ≠ 0) : showStartRequest e p = judgeShowStart e i k p := by
  rw [showStartRequest_named hi hk, if_neg (by rw [free]; exact Bool.false_ne_true), if_neg]
  rw [Bool.and_eq_true, decide_eq_true_iff, Slot.busy_iff]
  rintro ⟨busy, keep⟩
  rcases open_ with idle | replace
  · exact busy idle
  · exact replace keep

theorem judgeShowStart_error {why : Result} (h : (checkShow k p).1 = .error why) :
    judgeShowStart e i k p = answer e why [] (checkShow k p).2 := by
  rw [judgeShowStart, h]

theorem judgeShowStart_noHour {c : CheckedShow} (h : (checkShow k p).1 = .ok c) (none : repetitions c.copy (clockHour p) = none) :
    judgeShowStart e i k p = answer e .state [] (checkShow k p).2 := by
  rw [judgeShowStart, h]
  dsimp only
  rw [none]

/-- R28, R31: the start itself. -/
theorem judgeShowStart_starts {c : CheckedShow} {reps : Nat} (h : (checkShow k p).1 = .ok c)
    (some : repetitions c.copy (clockHour p) = some reps) : judgeShowStart e i k p =
      answer e .done [] (readDueSteps i (begunShow i k .management 0 reps c (clearedSlot i (checkShow k p).2))) := by
  have slots : (checkShow k p).2.slots = p.slots := (checkShow_noted k p).slots
  rw [judgeShowStart, h]
  dsimp only
  rw [some]
  dsimp only
  rw [clearedSlot, slots]
  split <;> rfl

end

/-- R40, R25: what the list of figures of a started show holds, told by the table of part `q`. -/
theorem begunShow_figures {k : ShowIx} {p q r : Part} {c : CheckedShow} (ok : (checkShow k p).1 = .ok c)
    (words : r.table.words = q.table.words) (x : FigIx) (d : Drive) :
    (resolveItems c.copy.items (governingItems c.copy.items) [] r).1.lookup x = some d ↔
      d.role = .item ∧ governs c.copy.items d.item x ∨
      d.role = .twin ∧ (∀ n, ¬ names c.copy.items n x) ∧
        (∃ own rec, governs c.copy.items d.item own ∧ (readFigure own [0] q).1 = some rec ∧ rec.twin = some x ∧ x ≠ own) ∧
        ∀ n, n < d.item → ¬ ∃ own rec, governs c.copy.items n own ∧ (readFigure own [0] q).1 = some rec ∧
          rec.twin = some x ∧ x ≠ own := by
  have twin : ∀ n, (∃ own, governs c.copy.items n own ∧ twinOf r own = some x ∧ x ≠ own) ↔
      ∃ own rec, governs c.copy.items n own ∧ (readFigure own [0] q).1 = some rec ∧ rec.twin = some x ∧ x ≠ own := by
    intro n
    refine exists_congr fun own => ?_
    rw [twinOf_congr words, twinOf, show figureTwinWords = [0] from rfl]
    cases (readFigure own [0] q).1 <;> simp
  rw [resolveItems_fst, lookup_listFigures (checkShow_ok ok).1]
  simp only [twin]

/-- R46, R47: the barrel context of a started show, told by the table of part `r`. -/
theorem contextOf_spec {k : ShowIx} {p r : Part} {c : CheckedShow} (ok : (checkShow k p).1 = .ok c)
    (words : r.table.words = p.table.words) :
    (c.copy.barrel = 0 → (contextOf c).state = .done ∧ (contextOf c).rowMap = []) ∧
    (c.copy.barrel ≠ 0 → ∃ h map,
      (readRecord .barrel c.copy.barrel [0, 1] r).1.map barrelHeader = some h ∧ map.length = h.rows ∧
      (∀ n, n < h.rows → (readWord .barrel (c.copy.barrel + 2 + n / 4) r).1.map (byteAt · (n % 4)) = map[n]?) ∧
      contextOf c = {
        state := .reading, start := c.copy.barrel, header := h, rowMap := map, rep := 0, step := 0
        lastStep := min (h.steps - 1) ((c.copy.duration + h.stepLength - 1) / h.stepLength - 1) }) := by
  obtain ⟨-, q, noted, barrel⟩ := checkShow_ok ok
  have same : q.table.words = r.table.words := noted.words.trans words.symm
  refine ⟨fun none => ?_, fun some => ?_⟩
  · rw [none] at barrel
    have silent := checkBarrel_none barrel
    rw [contextOf, silent]
    exact ⟨rfl, rfl⟩
  · obtain ⟨h, ws, eq, header, map⟩ := checkBarrel_some some barrel
    obtain ⟨length, bytes⟩ := rowMapOf_spec map
    refine ⟨h, rowMapOf h.rows ws, ?_, length, fun n less => ?_, ?_⟩
    · rw [← header, readRecord_fst_congr same .barrel .barrel]
    · rw [← bytes n less, readWord_fst_congr same .barrel .barrel]
    · rw [contextOf, eq]
      rfl

/-- Settles O21. -/
theorem showStartFillsTheSlotOrIsRefused : Obligations.ShowStartFillsTheSlotOrIsRefused := by
  intro s e rest waiting p
  have asked : exec .showStart s = .next (s.withPart (showStartRequest e p)) :=
    onRequest_waiting .showStart showStartRequest s e rest waiting
  refine ⟨fun beyond => by rw [asked, showStartRequest_beyond beyond], fun i k hi hk => ⟨fun stopped => ?_, fun free busy keep => ?_,
    fun free open_ => ⟨fun why fails => ?_, fun c ok none => ?_⟩, fun c reps free open_ ok some => ?_⟩⟩
  · rw [asked, showStartRequest_named hi hk]
    exact congrArg (fun q => Host.Outcome.next (s.withPart q)) (if_pos stopped)
  · have busy : (p.slots.read i).busy = true := (Slot.busy_iff _).mpr busy
    have running : allStopAsserted p = false := free
    rw [asked, showStartRequest_named hi hk, running, busy, keep]
    rfl
  · rw [asked, showStartRequest_judged (p := p) hi hk free open_, judgeShowStart_error fails]
  · rw [asked, showStartRequest_judged (p := p) hi hk free open_, judgeShowStart_noHour (p := p) ok none]
  have noted := checkShow_noted k p
  generalize cleared : clearedSlot i (checkShow k p).2 = base
  have baseGround : Grounded p base := by
    rw [← cleared]
    exact noted.grounded.trans (clearedSlot_grounded i _)
  have baseOthers : ∀ j, j ≠ i → base.slots.read j = p.slots.read j ∧ base.contexts.read j = p.contexts.read j := by
    intro j hj
    rw [← cleared, ← noted.slots, ← noted.contexts]
    exact clearedSlot_others i _ j hj
  have baseWaiting : (base.slots.read i).waiting = (p.slots.read i).waiting := by
    rw [← cleared, ← noted.slots]
    exact clearedSlot_waiting i _
  have starts : exec .showStart s = .next (s.withPart
      (answer e .done [] (readDueSteps i (begunShow i k .management 0 reps c base)))) := by
    rw [asked, showStartRequest_judged (p := p) hi hk free open_, judgeShowStart_starts (p := p) ok some, cleared]
  have started := (startShow_started i k .management 0 reps c base).congr (p := p) baseGround.lineTime baseWaiting
    fun j hj => (baseOthers j hj).1
  rw [startShow_eq] at started
  have begunSlots := begunShow_slots i k .management 0 reps c base
  have begunContexts := begunShow_contexts i k .management 0 reps c base
  have begunOwners := begunShow_owners i k .management 0 reps c base
  have begunLatched := begunShow_latched i k .management 0 reps c base
  have begunGround := baseGround.trans (begunShow_grounded i k .management 0 reps c base)
  generalize begunShow i k .management 0 reps c base = begun at *
  refine ⟨begun, ?_⟩
  have carried := (readDueSteps_carried i begun).1
  have contexts := (readDueSteps_carried i begun).2
  have slots : (readDueSteps i begun).slots = begun.slots := carried.slots
  have ground := begunGround.trans (readDueSteps_grounded i begun)
  have copy : ((readDueSteps i begun).slots.read i).copy =
      { c.copy with figures := (resolveItems c.copy.items (governingItems c.copy.items) [] base).1 } := by
    rw [slots, begunSlots, Bank.read_update_self]
  have own : begun.contexts.read i = contextOf c := by rw [begunContexts, Bank.read_update_self]
  obtain ⟨silent, prepared⟩ := contextOf_spec (r := s.part) ok rfl
  intro q
  refine ⟨starts, started.state, started.showIx, started.source, started.rank, started.reps, started.origin, started.hold,
    started.waiting, by rw [copy], fun x d => ?_, started.others, started.owners, ground.filter, ground.cal, ground.sameGround,
    ground.guard, begunOwners, begunLatched, started.latched, slots.symm, fun j hj => ?_, ?_, ?_⟩
  · rw [copy]
    exact begunShow_figures (q := s.part) ok baseGround.words x d
  · rw [contexts j hj, begunContexts, Bank.read_update_ne _ _ _ _ hj]
    exact (baseOthers j hj).2
  · rw [own]
    exact silent
  · rw [own]
    exact prepared

end Sys2Proof.Machine
end

section
/-! The ownership table taken afresh (R39 to R43, R72, R90), the ends of shows (R24) and of pending starts (R33). -/

namespace Sys2Proof.Machine

/-! ## Who owns what (R39) -/

theorem find?_allSlots_iff {q : SlotIx → Bool} {i : SlotIx} :
    allSlots.find? q = some i ↔ q i = true ∧ ∀ j, j < i → ¬ q j = true := by
  have all : allSlots = List.finRange 3 := by decide
  rw [all]
  constructor
  · intro found
    obtain ⟨own, n, lt, at_, before⟩ := List.find?_eq_some_iff_getElem.mp found
    refine ⟨own, fun j less => ?_⟩
    have index : n = i.val := by rw [← at_]; simp
    have := before j.val (by rw [index]; exact less)
    simpa using this
  · rintro ⟨own, least⟩
    exact find?_finRange own fun j less => Bool.eq_false_iff.mpr (least j less)

/-- R39: the owner of something is the first busy slot that lists it. -/
theorem claim_iff (slots : Bank Slot 3) (lists : SlotIx → Bool) (i : SlotIx) :
    (allSlots.find? fun i => (slots.read i).busy && lists i) = some i ↔
      (slots.read i).state ≠ .idle ∧ lists i = true ∧ ∀ j, j < i → ¬ ((slots.read j).state ≠ .idle ∧ lists j = true) := by
  rw [find?_allSlots_iff]
  simp only [Bool.and_eq_true, Slot.busy_iff, and_assoc]

/-! ## The strikes lost (R41, R72) -/

theorem releaseStrike_setOwners (e : Strike) (rest : List Strike) (p : Part) (bells : Bank (Option SlotIx) 48)
    (figures : Bank (Option SlotIx) 16) : releaseStrike e rest { p with bellOwner := bells, figOwner := figures } =
      { releaseStrike e rest p with bellOwner := bells, figOwner := figures } := rfl

/-- R65: a release does not depend on the owners. -/
theorem releaseLoop_setOwners (n : Nat) (p : Part) (bells : Bank (Option SlotIx) 48) (figures : Bank (Option SlotIx) 16) :
    releaseLoop n { p with bellOwner := bells, figOwner := figures } =
      { releaseLoop n p with bellOwner := bells, figOwner := figures } := by
  induction n generalizing p with
  | zero => rfl
  | succ n ih =>
    rw [releaseLoop, releaseLoop]
    dsimp only
    cases p.strikes.queue with
    | nil => rfl
    | cons e rest =>
      dsimp only
      by_cases goes : (e.due p && p.out.strike.length < strikeFrameCapacity) = true
      · rw [if_pos goes, if_pos (show (e.due { p with bellOwner := bells, figOwner := figures } && _) = true from goes),
          releaseStrike_setOwners, ih]
      · rw [if_neg goes, if_neg (show ¬ (e.due { p with bellOwner := bells, figOwner := figures } && _) = true from goes)]

theorem removeStrikes_setOwners (gone : Strike → Bool) (p : Part) (bells : Bank (Option SlotIx) 48)
    (figures : Bank (Option SlotIx) 16) : removeStrikes gone { p with bellOwner := bells, figOwner := figures } =
      { removeStrikes gone p with bellOwner := bells, figOwner := figures } := by
  rw [removeStrikes, removeStrikes]
  dsimp only
  split
  · exact releaseLoop_setOwners _ (setQueue (p.strikes.queue.filter fun e => !gone e) p) bells figures
  · rfl

theorem removeStrikes_eq (gone : Strike → Bool) (p : Part) : removeStrikes gone p =
    if p.strikes.queue.head?.any gone then releaseDue (setQueue (p.strikes.queue.filter fun e => !gone e) p)
    else setQueue (p.strikes.queue.filter fun e => !gone e) p := rfl

/-! ## Retargets (R43, R90) -/

section
variable {k : FigIx} {p : Part}

/-- R90: a figure taken from IDLE to DRIVEN. -/
theorem driveIdle_own (k : FigIx) (p : Part) : (driveIdle k p).figures.read k =
    match (readFigure k [0, 2] p).1 with
    | some rec => { p.figures.read k with
        state := .driven, setpoint := max rec.lower (min rec.upper (p.figures.read k).setpoint), lag := false, stall := none
        silence := some p.lineTime
        brake := if rec.node = 0 then (p.figures.read k).brake
          else some (BitVec.ofNat 8 rec.node, BitVec.ofNat 8 rec.channel) }
    | none => { p.figures.read k with state := .driven, lag := false, stall := none, silence := some p.lineTime } := by
  rw [driveIdle, setFigure_own, show figureLimitWords = [0, 2] from rfl]
  cases read : (readFigure k [0, 2] p).1 with
  | none => rw [readFigure_own_none read]
  | some rec => rw [readFigure_own_some read, LiveFigure.braked_eq]; rfl

/-- R43: a figure retargeted. -/
theorem retarget_own (k : FigIx) (o : Option SlotIx) (d : Option Drive) (p : Part) : (retarget k o d p).figures.read k =
    match (p.figures.read k).state, o with
    | .idle, some _ => (driveIdle k (setFigure k (fun g => { g with owner := o, drive := d }) p)).figures.read k
    | .driven, none => { p.figures.read k with owner := o, drive := d, state := .homing }
    | .homing, some _ => { p.figures.read k with owner := o, drive := d, state := .driven }
    | _, _ => { p.figures.read k with owner := o, drive := d } := by
  have set := setFigure_own k (fun g => { g with owner := o, drive := d }) p
  unfold retarget
  generalize setFigure k (fun g => { g with owner := o, drive := d }) p = q at set ⊢
  cases (p.figures.read k).state <;> cases o <;> simp only [setFigure_own, set]

end

/-- R43, R90: a figure `g` of part `p` whose owner becomes `o`. -/
def retargeted (p : Part) (k : FigIx) (o : Option SlotIx) (g : LiveFigure) : LiveFigure :=
  let h := { g with owner := o, drive := governing p.slots k o }
  match g.state, o with
  | .idle, some _ => match (readFigure k [0, 2] p).1 with
    | some rec => { h with
        state := .driven, setpoint := max rec.lower (min rec.upper g.setpoint), lag := false, stall := none
        silence := some p.lineTime
        brake := if rec.node = 0 then g.brake else some (BitVec.ofNat 8 rec.node, BitVec.ofNat 8 rec.channel) }
    | none => { h with state := .driven, lag := false, stall := none, silence := some p.lineTime }
  | .driven, none => { h with state := .homing }
  | .homing, some _ => { h with state := .driven }
  | _, _ => h

theorem retarget_retargeted (k : FigIx) (o : Option SlotIx) (p : Part) :
    (retarget k o (governing p.slots k o) p).figures.read k = retargeted p k o (p.figures.read k) := by
  rw [retarget_own]
  cases state : (p.figures.read k).state <;> cases o <;> simp only [retargeted, state]
  rename_i i
  have set := setFigure_own k (fun g => { g with owner := some i, drive := governing p.slots k (some i) }) p
  have words : (setFigure k (fun g => { g with owner := some i, drive := governing p.slots k (some i) }) p).table.words =
      p.table.words := rfl
  rw [driveIdle_own, set, readFigure_fst_congr words]
  rfl

theorem retargeted_congr {p q : Part} (words : q.table.words = p.table.words) (time : q.lineTime = p.lineTime)
    (slots : q.slots = p.slots) (k : FigIx) (o : Option SlotIx) (g : LiveFigure) : retargeted q k o g = retargeted p k o g := by
  simp only [retargeted, readFigure_fst_congr words, time, slots]

/-- R39: a part whose ownership table has been taken afresh, its new owners by name. -/
theorem reowned_frame (p : Part) : ∃ (bells : Bank (Option SlotIx) 48) (figures : Bank (Option SlotIx) 16),
    reowned p = { p with bellOwner := bells, figOwner := figures } ∧ (∀ b, bells.read b = bellClaim p.slots b) ∧
      ∀ k, figures.read k = figureClaim p.slots k :=
  ⟨_, _, rfl, fun _ => Bank.read_ofFn _ _, fun _ => Bank.read_ofFn _ _⟩

/-- R41, R43: what a recomputation leaves of each figure. -/
theorem recompute_figure (p : Part) (k : FigIx) : (recompute p).figures.read k =
    if figureClaim p.slots k = p.figOwner.read k then p.figures.read k
    else retargeted p k (figureClaim p.slots k) (p.figures.read k) := by
  obtain ⟨bells, figures, eq', -, claims'⟩ := reowned_frame p
  have eq := recompute_eq p
  rw [eq'] at eq
  have claims : ({ p with bellOwner := bells, figOwner := figures } : Part).figOwner.read k = figureClaim p.slots k := claims' k
  have slots : ({ p with bellOwner := bells, figOwner := figures } : Part).slots = p.slots := rfl
  have live : ({ p with bellOwner := bells, figOwner := figures } : Part).figures = p.figures := rfl
  have words : ({ p with bellOwner := bells, figOwner := figures } : Part).table.words = p.table.words := rfl
  have time : ({ p with bellOwner := bells, figOwner := figures } : Part).lineTime = p.lineTime := rfl
  generalize ({ p with bellOwner := bells, figOwner := figures } : Part) = r at *
  have struck : Struck r (withdrawLost p.bellOwner r) := removeStrikes_struck _ _
  generalize withdrawLost p.bellOwner r = w at *
  obtain ⟨q, before, after⟩ := foldl_own (fun q k => (handRetarget_rested p.figOwner k q).posed) allFigures_once (mem_allFigures k) w
  rw [← eq] at after
  rw [after.others k (fun h => h rfl), handRetarget]
  have own : q.figures.read k = p.figures.read k := by rw [before.others k (fun h => h rfl), struck.figures, live]
  have owner : q.figOwner.read k = figureClaim p.slots k := by rw [before.figOwner, struck.figOwner, claims]
  have qslots : q.slots = p.slots := (before.slots.trans struck.slots).trans slots
  rw [owner]
  split
  · exact own
  · rw [retarget_retargeted, own, retargeted_congr ((before.words.trans struck.words).trans words)
      ((before.lineTime.trans struck.lineTime).trans time) qslots]

theorem recompute_struck (p : Part) : (recompute p).strikes = (withdrawLost p.bellOwner (reowned p)).strikes ∧
    (recompute p).out.strike = (withdrawLost p.bellOwner (reowned p)).out.strike ∧ (recompute p).contexts = p.contexts := by
  have contexts := (recompute_carried p).contexts
  rw [recompute_eq] at contexts ⊢
  have handed := foldl_rested (S := fun _ => True) (fun x k => handRetarget p.figOwner k x) allFigures
    (withdrawLost p.bellOwner (reowned p)) fun q k => (handRetarget_rested p.figOwner k q).mono fun _ _ => trivial
  exact ⟨handed.strikes, by rw [handed.out], contexts⟩

theorem setOwners_struck {p q : Part} {bells : Bank (Option SlotIx) 48} {figures : Bank (Option SlotIx) 16}
    (h : q = { p with bellOwner := bells, figOwner := figures }) : q.strikes = p.strikes ∧ q.out = p.out := by
  rw [h]
  exact ⟨rfl, rfl⟩

/-- R41, R72: a recomputation withdraws the strikes that their slots have lost, and nothing else becomes of a strike. -/
theorem recompute_strikes (p : Part) :
    (recompute p).strikes = (removeStrikes (·.lost p.bellOwner (recompute p).bellOwner) p).strikes ∧
    (recompute p).out.strike = (removeStrikes (·.lost p.bellOwner (recompute p).bellOwner) p).out.strike := by
  obtain ⟨strikes, released, -⟩ := recompute_struck p
  obtain ⟨bells, figures, eq, claims, -⟩ := reowned_frame p
  have owner : (recompute p).bellOwner = bells := Bank.ext_read _ _ fun b => (recompute_bellOwner p b).trans (claims b).symm
  have withdrawn : withdrawLost p.bellOwner (reowned p) =
      { removeStrikes (·.lost p.bellOwner bells) p with bellOwner := bells, figOwner := figures } := by
    rw [eq, withdrawLost, removeStrikes_setOwners]
  obtain ⟨same, out⟩ := setOwners_struck withdrawn
  rw [owner]
  exact ⟨strikes.trans same, released.trans (congrArg Outbound.strike out)⟩

/-! ## Ends and expiries (R24, R33) -/

section
variable {i : SlotIx} {p : Part}

theorem considerPending_none (h : (p.slots.read i).waiting = none) : considerPending i p = p := by
  rw [considerPending, h]

/-- R33: for an IDLE slot the pending start is carried out as a request. -/
theorem considerPending_some {w : PendingStart} (h : (p.slots.read i).waiting = some w) (idle : (p.slots.read i).state = .idle)
    (free : allStopAsserted p = false) : considerPending i p = requestStart {
      slot := i, showIx := w.showIx, source := w.source, rank := w.rank, hour := w.hour, trigger := w.trigger }
      (setSlot i (fun y => { y with waiting := none }) p) := by
  have state : ((setSlot i (fun y => { y with waiting := none }) p).slots.read i).state = .idle :=
    (congrArg Slot.state (Bank.read_update_self p.slots i _)).trans idle
  have stopless : ¬ allStopAsserted (setSlot i (fun y => { y with waiting := none }) p) = true := by
    rw [show allStopAsserted (setSlot i (fun y => { y with waiting := none }) p) = allStopAsserted p from rfl, free]
    exact Bool.false_ne_true
  rw [considerPending, h, requestStart, if_neg stopless, if_pos (by rw [Slot.busy_of_idle state]; rfl)]

end

theorem recompute_waiting {i : SlotIx} {p : Part} {k : Nat} :
    (recompute (latchEvent k (setContext i (fun _ => BarrelContext.initial)
      (setSlot i (fun y => { y with state := .idle, hold := none }) p)))).slots.read i =
      { p.slots.read i with state := .idle, hold := none } := by
  rw [recompute_slots, (latchEvent_noted _ _).slots, setContext_slots, setSlot_slots, Bank.read_update_self]

/-- Settles O25. -/
theorem showsEndAndPendingStartsExpire : Obligations.ShowsEndAndPendingStartsExpire := by
  refine ⟨fun p => ?_, fun s i running => ?_⟩
  · intro t slot owns lost stay left
    obtain ⟨-, -, contexts⟩ := recompute_struck p
    obtain ⟨strikes, released⟩ := recompute_strikes p
    have removes : removeStrikes (·.lost p.bellOwner (recompute p).bellOwner) p = left := removeStrikes_eq lost p
    rw [removes] at strikes released
    have bellOwner := recompute_bellOwner p
    have figOwner := recompute_figOwner p
    have slots := recompute_slots p
    have figures := recompute_figure p
    have told : t = recompute p := rfl
    clear_value t
    rw [← told] at strikes released contexts bellOwner figOwner slots figures
    refine ⟨fun b i => ?_, fun k i => ?_, strikes, released, slots, contexts, fun k => ?_⟩
    · rw [bellOwner]
      exact claim_iff p.slots (fun i => member (p.slots.read i).copy.bells b.val) i
    · rw [figOwner]
      exact claim_iff p.slots (fun i => ((p.slots.read i).copy.figures.lookup k).isSome) i
    · intro g o h
      have owner : o = figureClaim p.slots k := figOwner k
      have figure := figures k
      rw [← owner] at figure
      refine ⟨fun kept => figure.trans (if_pos kept), fun changed => (figure.trans (if_neg changed)).trans rfl⟩
  · intro x
    refine ⟨fun runs ended => ?_, fun held => ?_, fun w waits expired => ?_⟩
    · intro q
      have due : endDue i s.part = true := by
        have time : x.endInstant ≤ x.time s.part.lineTime := by
          rw [Slot.time, runs]
          exact ended
        rw [endDue, Bool.and_eq_true]
        exact ⟨decide_eq_true runs, decide_eq_true time⟩
      have idled : q.slots.read i = { x with state := .idle, hold := none } := recompute_waiting
      have guard : allStopAsserted q = allStopAsserted s.part := by
        rw [allStopAsserted, recompute_guard, (latchEvent_noted _ _).guard]
        rfl
      refine ⟨?_, fun none => considerPending_none (by rw [idled]; exact none), fun w waits free =>
        considerPending_some (by rw [idled]; exact waits) (by rw [idled]) (by rw [guard]; exact free)⟩
      exact (run_running _ s running).trans (congrArg (fun q => Host.Outcome.next (s.withPart q)) (if_pos due))
    · refine (run_running _ s running).trans ?_
      rw [endShow, endDue_of_held held]
      rfl
    · have due : expiryDue i s.part = true := by
        rw [expiryDue, show (s.part.slots.read i).waiting = some w from waits]
        exact decide_eq_true expired
      exact (run_running _ s running).trans (congrArg (fun q => Host.Outcome.next (s.withPart q)) (if_pos due))

end Sys2Proof.Machine
end

section
/-! FIGURE RELEASE (R98) and the reports of coils and positions (R75, R76, R91 to R95). -/

namespace Sys2Proof.Machine

/-! ## FIGURE RELEASE (R98) -/

/-- R97: a resynchronisation tells the figure by its owner, its positions and its brake address alone. -/
theorem resyncedFrom_stood (p : Part) (k : FigIx) (g : LiveFigure) (x : BitVec 8) (why : FaultReason) (y : FigureState) :
    resyncedFrom p k { g with hold := x, fault := why, state := y } = resyncedFrom p k g := by
  simp only [resyncedFrom]

/-- R98: what a release of `lines` leaves of the figure `g`, the live record of figure `k` in `p`. -/
structure ReleasedFrom (p : Part) (lines : BitVec 8) (k : FigIx) (g t : LiveFigure) : Prop where
  hold : t.hold = g.hold &&& ~~~ lines
  faulted : g.state = .faulted → g.hold &&& ~~~ lines ≠ 0 → t.state = .frozen ∧ t.fault = .none
  frozen : g.state = .frozen → g.hold &&& ~~~ lines ≠ 0 → t.state = .frozen
  free : g.state = .idle ∨ g.state = .driven ∨ g.state = .homing → t.state = g.state
  freed : g.state = .faulted ∨ g.state = .frozen → g.hold &&& ~~~ lines = 0 → t = resyncedFrom p k g

theorem resyncedFrom_empty (p : Part) (k : FigIx) (g : LiveFigure) : (resyncedFrom p k g).hold = 0 := by
  unfold resyncedFrom
  split <;> rfl

theorem ReleasedFrom.of_resynced {p : Part} {lines : BitVec 8} {k : FigIx} {g t : LiveFigure}
    (stands : g.state = .faulted ∨ g.state = .frozen) (empty : g.hold &&& ~~~ lines = 0) (h : t = resyncedFrom p k g) :
    ReleasedFrom p lines k g t where
  hold := by rw [h, resyncedFrom_empty, empty]
  faulted _ held := absurd empty held
  frozen _ held := absurd empty held
  free moves := by rcases stands with e | e <;> rw [e] at moves <;> simp at moves
  freed _ _ := h

/-- R98: a resynchronisation of a standing figure whose hold set a release has emptied. -/
theorem resync_released {k : FigIx} {p q : Part} {x : BitVec 8} {why : FaultReason} {y : FigureState}
    (words : q.table.words = p.table.words) (time : q.lineTime = p.lineTime) (empty : x = 0)
    (own : q.figures.read k = { p.figures.read k with hold := x, fault := why, state := y }) :
    (resync k q).figures.read k = resyncedFrom p k (p.figures.read k) := by
  rw [resync_own k q (by rw [own]; exact empty), own, resyncedFrom_stood, resyncedFrom_congr words time]

theorem releaseFigure_own (lines : BitVec 8) (k : FigIx) (p : Part) :
    ReleasedFrom p lines k (p.figures.read k) ((releaseFigure lines k p).figures.read k) := by
  unfold releaseFigure
  dsimp only
  split
  next state =>
    split
    next emptied =>
      have empty : (p.figures.read k).hold &&& ~~~ lines = 0 := emptied
      refine .of_resynced (.inl state) empty (resync_released (x := (p.figures.read k).hold &&& ~~~ lines) (why := .none)
        (y := .frozen) rfl rfl empty ?_)
      rw [setFigure_own, setFigure_own]
    next held =>
      rw [setFigure_own, setFigure_own]
      exact {
        hold := rfl
        faulted := fun _ _ => ⟨rfl, rfl⟩
        frozen := fun _ _ => rfl
        free := fun moves => by rw [state] at moves; simp at moves
        freed := fun _ empty => absurd empty held }
  next state =>
    split
    next emptied =>
      have empty : (p.figures.read k).hold &&& ~~~ lines = 0 := emptied
      refine .of_resynced (.inr state) empty (resync_released (x := (p.figures.read k).hold &&& ~~~ lines)
        (why := (p.figures.read k).fault) (y := (p.figures.read k).state) rfl rfl empty ?_)
      rw [setFigure_own]
    next held =>
      rw [setFigure_own]
      exact {
        hold := rfl
        faulted := fun other _ => by rw [state] at other; cases other
        frozen := fun _ _ => state
        free := fun _ => rfl
        freed := fun _ empty => absurd empty held }
  all_goals
    next state =>
      rw [setFigure_own]
      exact {
        hold := rfl
        faulted := fun other _ => by rw [state] at other; cases other
        frozen := fun other _ => by rw [state] at other; cases other
        free := fun _ => rfl
        freed := fun stands _ => by rw [state] at stands; simp at stands }

theorem ReleasedFrom.congr {p q : Part} {lines : BitVec 8} {k : FigIx} {g t : LiveFigure} (h : ReleasedFrom q lines k g t)
    (words : q.table.words = p.table.words) (time : q.lineTime = p.lineTime) : ReleasedFrom p lines k g t :=
  { h with freed := fun stands empty => (h.freed stands empty).trans (resyncedFrom_congr words time k g) }

/-- R98: the figures named are released one after another. -/
theorem releaseFigures_own (lines : BitVec 8) (named : BitVec 16) (p : Part) (k : FigIx) :
    let q := allFigures.foldl (fun q k => if member named k.val then releaseFigure lines k q else q) p
    Rested (fun _ => True) p q ∧ (member named k.val = false → q.figures.read k = p.figures.read k) ∧
      (member named k.val = true → ReleasedFrom p lines k (p.figures.read k) (q.figures.read k)) := by
  intro q
  have each : ∀ (q : Part) (k : FigIx), Rested (· = k) q (if member named k.val then releaseFigure lines k q else q) := by
    intro q k
    split
    · exact releaseFigure_rested lines k q
    · exact Rested.refl _ q
  obtain ⟨r, before, after⟩ := foldl_own (fun q k => (each q k).posed) allFigures_once (mem_allFigures k) p
  have own : r.figures.read k = p.figures.read k := before.others k fun h => h rfl
  have done := after.others k fun h => h rfl
  refine ⟨foldl_rested _ _ p fun q k => (each q k).mono fun _ _ => trivial, fun not => ?_, fun named => ?_⟩
  · rw [not] at done
    exact done.trans own
  · rw [if_pos named] at done
    have released := releaseFigure_own lines k r
    rw [← done, own] at released
    exact released.congr before.words before.lineTime

/-- Settles O36. -/
theorem figureReleaseFreesTheFiguresNamed : Obligations.FigureReleaseFreesTheFiguresNamed := by
  intro s e rest waiting
  have length : e.frame.payload.length = 3 := of_decide_eq_true waiting.2.2.2
  have number : e.frame.number 1 2 = e.frame.arg 1 * 256 + e.frame.arg 2 := number_two _ _ (by omega)
  have asked := onRequest_waiting .figureRelease figureReleaseRequest s e rest waiting
  have all := releaseFigures_own (releasable s.part) (BitVec.ofNat 16 (e.frame.number 1 2)) (setManagement rest s.part)
  refine ⟨_, asked, (all 0).1.sameButFigures, (all 0).1.guard, fun k => ?_⟩
  intro named g left
  have is : member (BitVec.ofNat 16 (e.frame.number 1 2)) k.val = named := by
    rw [number, member, BitVec.getLsbD_ofNat]
    simp [named]
  obtain ⟨-, kept, released⟩ := all k
  rw [is] at kept released
  exact ⟨kept, fun own => (released own).hold, fun own => (released own).faulted, fun own => (released own).frozen,
    fun own => (released own).free, fun own => ((released own).congr (p := s.part) rfl rfl).freed⟩

/-! ## The first record of a scan (R75, R91) -/

/-- The first of the indexes at which something is found. -/
theorem findSome?_finRange {n : Nat} {β : Type} {f : Fin n → Option β} {x : β} :
    (List.finRange n).findSome? f = some x ↔ ∃ i, f i = some x ∧ ∀ j, j < i → f j = none := by
  rw [List.findSome?_eq_some_iff]
  constructor
  · rintro ⟨before, i, after, all, found, none⟩
    refine ⟨i, found, fun j less => none j ?_⟩
    have sorted := List.pairwise_lt_finRange n
    rw [all, List.pairwise_append] at sorted
    have mem := List.mem_finRange j
    rw [all] at mem
    rcases List.mem_append.mp mem with first | later
    · exact first
    · rcases List.mem_cons.mp later with rfl | later
      · exact absurd less (lt_irrefl _)
      · exact absurd (less.trans (List.rel_of_pairwise_cons sorted.2.1 later)) (lt_irrefl _)
  · rintro ⟨i, found, none⟩
    obtain ⟨before, after, all⟩ := List.append_of_mem (List.mem_finRange i)
    refine ⟨before, i, after, all, found, fun j hj => none j ?_⟩
    have sorted := List.pairwise_lt_finRange n
    rw [all, List.pairwise_append] at sorted
    exact sorted.2.2 j hj i List.mem_cons_self

theorem findSome?_finRange_none {n : Nat} {β : Type} {f : Fin n → Option β} :
    (List.finRange n).findSome? f = none ↔ ∀ i, f i = none := by
  rw [List.findSome?_eq_none_iff]
  exact ⟨fun h i => h i (List.mem_finRange i), fun h i _ => h i⟩

/-- R75: the bell `b` and its heat limit, when its record in `p` reads well with the node and the channel. -/
def bellAt (node channel : Nat) (hot : Bool) (p : Part) (b : BellIx) : Option (BellIx × Nat) :=
  match (readBell b (bellScanWords hot) p).1 with
  | none => none
  | some rec => if rec.node ≠ 0 && rec.node = node && rec.channel = channel then some (b, rec.heatLimit) else none

theorem scanBells_fst (node channel : Nat) (hot : Bool) (bs : List BellIx) (p : Part) :
    (scanBells node channel hot bs p).1 = bs.findSome? (bellAt node channel hot p) := by
  have told : ∀ q : Part, q.table.words = p.table.words →
      (scanBells node channel hot bs q).1 = bs.findSome? (bellAt node channel hot p) := by
    induction bs with
    | nil => exact fun _ _ => rfl
    | cons b rest ih =>
      intro q words
      have later := ih (readBell b (bellScanWords hot) q).2 ((readBell_noted _ _ q).words.trans words)
      have read := readBell_fst_congr words b (bellScanWords hot)
      rw [List.findSome?_cons, bellAt, ← read, scanBells]
      cases (readBell b (bellScanWords hot) q).1 with
      | none => exact later
      | some rec =>
        dsimp only
        by_cases own : (rec.node ≠ 0 && rec.node = node && rec.channel = channel) = true
        · rw [if_pos own, if_pos own]
        · rw [if_neg own, if_neg own]
          exact later
  exact told p rfl

theorem bellAt_eq_some {node channel : Nat} {hot : Bool} {p : Part} {b b' : BellIx} {limit : Nat} :
    bellAt node channel hot p b = some (b', limit) ↔ b' = b ∧ ∃ rec, ((readBell b (if hot then [0, 2] else [0]) p).1 = some rec ∧
      rec.node ≠ 0 ∧ rec.node = node ∧ rec.channel = channel) ∧ limit = rec.heatLimit := by
  rw [bellAt, show bellScanWords hot = if hot then [0, 2] else [0] from rfl]
  cases (readBell b (if hot then [0, 2] else [0]) p).1 with
  | none => simp
  | some rec =>
    dsimp only
    split
    next own =>
      simp only [Bool.and_eq_true, decide_eq_true_eq, and_assoc] at own
      constructor
      · intro h
        obtain ⟨rfl, rfl⟩ := Prod.mk.inj (Option.some.inj h)
        exact ⟨rfl, rec, ⟨rfl, own⟩, rfl⟩
      · rintro ⟨rfl, rec', ⟨found, -⟩, rfl⟩
        rw [Option.some.inj found]
    next other =>
      simp only [Bool.and_eq_true, decide_eq_true_eq, and_assoc] at other
      constructor
      · intro h
        cases h
      · rintro ⟨-, rec', ⟨found, fits⟩, -⟩
        obtain rfl := Option.some.inj found
        exact absurd fits other

theorem bellAt_eq_none {node channel : Nat} {hot : Bool} {p : Part} {b : BellIx} :
    bellAt node channel hot p b = none ↔ ∀ rec, ¬ ((readBell b (if hot then [0, 2] else [0]) p).1 = some rec ∧
      rec.node ≠ 0 ∧ rec.node = node ∧ rec.channel = channel) := by
  constructor
  · intro none rec fits
    have := bellAt_eq_some.mpr ⟨rfl, rec, fits, rfl⟩
    rw [none] at this
    cases this
  · intro none
    cases found : bellAt node channel hot p b with
    | none => rfl
    | some x =>
      obtain ⟨-, rec, fits, -⟩ := bellAt_eq_some.mp found
      exact absurd fits (none rec)

theorem bellAt_congr {p q : Part} (words : q.table.words = p.table.words) (node channel : Nat) (hot : Bool) :
    bellAt node channel hot q = bellAt node channel hot p := by
  funext b
  rw [bellAt, bellAt, readBell_fst_congr words]

/-! ## COIL reports (R75, R76) -/

theorem coilStatus_beyond {n : Nat} (h : 3 < n) : coilStatus n = none := by
  obtain ⟨m, rfl⟩ : ∃ m, n = m + 4 := ⟨n - 4, by omega⟩
  rfl

section
variable {e : IntakeEntry} {rest : List IntakeEntry} {p : Part}

theorem takeCoilReport_other (front : p.filter.bells.entries = e :: rest)
    (other : ¬ (e.frame.kind = Kind.coil ∧ e.frame.payload.length = 2)) : takeCoilReport p =
      coilUnmatched (setBellsIntake (fun q => { q with rejected := some e.hit })
        (setBellsIntake (fun q => { q with entries := rest }) p)) := by
  rw [takeCoilReport, front]
  refine if_pos ?_
  rw [Bool.or_eq_true, decide_eq_true_iff, decide_eq_true_iff]
  exact not_and_or.mp other

theorem takeCoilReport_coil (front : p.filter.bells.entries = e :: rest)
    (good : e.frame.kind = Kind.coil ∧ e.frame.payload.length = 2) : takeCoilReport p =
      match coilStatus (e.frame.arg 1) with
      | none => coilUnmatched (setBellsIntake (fun q => { q with entries := rest }) p)
      | some st => coilReport e st (setBellsIntake (fun q => { q with entries := rest }) p) := by
  rw [takeCoilReport, front]
  refine if_neg ?_
  rw [Bool.or_eq_true, decide_eq_true_iff, decide_eq_true_iff]
  exact not_or.mpr ⟨not_not.mpr good.1, not_not.mpr good.2⟩

end

section
variable {e : IntakeEntry} {st : CoilStatus} {p : Part}

theorem coilReport_none (h : (scanBells e.frame.source.toNat (e.frame.arg 0) (st = .hot) allBells p).1 = none) :
    coilReport e st p = coilUnmatched (scanBells e.frame.source.toNat (e.frame.arg 0) (st = .hot) allBells p).2 := by
  rw [coilReport, h]

/-- R76: a report of a known status for bell `b`. -/
theorem coilReport_some {b : BellIx} {limit : Nat}
    (h : (scanBells e.frame.source.toNat (e.frame.arg 0) (st = .hot) allBells p).1 = some (b, limit)) : coilReport e st p =
      let q := (scanBells e.frame.source.toNat (e.frame.arg 0) (st = .hot) allBells p).2
      match st with
      | .ok => q
      | .opened | .short => bellFaulted b q
      | .hot => setBell b (fun x => { x with heat := limit }) q := by
  rw [coilReport, h]
  cases st <;> rfl

end

/-- Settles O30. -/
theorem coilReportActsByItsStatus : Obligations.CoilReportActsByItsStatus := by
  intro s e rest running front p good scanned mapped
  have takes : exec .coilReportTaken s = .next (s.withPart (takeCoilReport s.part)) := run_running _ s running
  have scan : ∀ hot, (scanned hot).1 = allBells.findSome? (bellAt e.frame.source.toNat (e.frame.arg 0) hot s.part) := by
    intro hot
    rw [← bellAt_congr (p := s.part) (q := p) rfl]
    exact scanBells_fst _ _ hot allBells p
  have known : ∀ st, good → coilStatus (e.frame.arg 1) = some st →
      exec .coilReportTaken s = .next (s.withPart (coilReport e st p)) := by
    intro st fits status
    rw [takes, takeCoilReport_coil front fits, status]
  have cold : good → e.frame.arg 1 < 3 → ∃ st, coilStatus (e.frame.arg 1) = some st ∧ st ≠ .hot := by
    intro _ low
    obtain h | h | h : e.frame.arg 1 = 0 ∨ e.frame.arg 1 = 1 ∨ e.frame.arg 1 = 2 := by omega
    · exact ⟨.ok, by rw [h]; rfl, by decide⟩
    · exact ⟨.opened, by rw [h]; rfl, by decide⟩
    · exact ⟨.short, by rw [h]; rfl, by decide⟩
  refine ⟨fun hot => ?_, fun hot b limit => ?_, fun other => ?_, fun fits beyond => ?_, fun fits low none => ?_,
    fun fits hot none => ?_, fun b limit => ⟨fun fits found ok => ?_, fun fits found broken => ?_, fun fits found hot => ?_⟩⟩
  · rw [scan, allBells, findSome?_finRange_none]
    exact forall_congr' fun b => bellAt_eq_none
  · rw [scan, allBells, findSome?_finRange]
    constructor
    · rintro ⟨i, found, first⟩
      obtain ⟨rfl, rec, fits, limit⟩ := bellAt_eq_some.mp found
      exact ⟨⟨rec, fits, limit⟩, fun j rec less => bellAt_eq_none.mp (first j less) rec⟩
    · rintro ⟨⟨rec, fits, limit⟩, first⟩
      exact ⟨b, bellAt_eq_some.mpr ⟨rfl, rec, fits, limit⟩, fun j less => bellAt_eq_none.mpr fun rec => first j rec less⟩
  · rw [takes, takeCoilReport_other front other]
    rfl
  · rw [takes, takeCoilReport_coil front fits, coilStatus_beyond beyond]
    rfl
  · obtain ⟨st, status, notHot⟩ := cold fits low
    have missed : (scanBells e.frame.source.toNat (e.frame.arg 0) (st = .hot) allBells p).1 = Option.none := by
      rw [decide_eq_false notHot]
      exact none
    rw [known st fits status, coilReport_none missed, decide_eq_false notHot]
    rfl
  · rw [known .hot fits (by rw [hot]; rfl), coilReport_none (st := .hot) none]
    rfl
  · rw [known .ok fits (by rw [ok]; rfl), coilReport_some (st := .ok) found]
    rfl
  · rcases broken with one | two
    · rw [known .opened fits (by rw [one]; rfl), coilReport_some (st := .opened) found]
      rfl
    · rw [known .short fits (by rw [two]; rfl), coilReport_some (st := .short) found]
      rfl
  · rw [known .hot fits (by rw [hot]; rfl), coilReport_some (st := .hot) found]
    rfl

end Sys2Proof.Machine
end

section
/-! Faults of moving figures and the POSITION reports (R91 to R95). -/

namespace Sys2Proof.Machine

/-! ## A fault (R95, R147) -/

theorem setFigure_congr {k : FigIx} {f g : LiveFigure → LiveFigure} {p : Part}
    (h : f (p.figures.read k) = g (p.figures.read k)) : setFigure k f p = setFigure k g p := by
  have : p.figures.update k f = p.figures.update k g := by
    refine Bank.ext_read _ _ fun j => ?_
    by_cases e : j = k
    · subst e; simp only [Bank.read_update_self, h]
    · simp only [Bank.read_update_ne _ _ _ _ e]
  simp only [setFigure, this]

/-- R95: a figure with no brake address brakes every drive. -/
theorem brakeFigure_eq (k : FigIx) (p : Part) : brakeFigure k p =
    appendBrake ((p.figures.read k).brake.getD (127, 255)).1 ((p.figures.read k).brake.getD (127, 255)).2 p := by
  rw [brakeFigure]
  cases (p.figures.read k).brake <;> rfl

theorem appendBrake_room {d c : Byte} {p : Part} (h : p.out.guard.length < 16) : appendBrake d c p =
    { p with
      out := { p.out with guard := p.out.guard ++ [{
        dest := d, source := p.settings.ownAddress, kind := Kind.brake, tag := Config.freeByte p.freeUsed, payload := [c] }] }
      freeUsed := p.freeUsed + 1 } := if_pos h

theorem appendBrake_full {d c : Byte} {p : Part} (h : ¬ p.out.guard.length < 16) : appendBrake d c p =
    { p with counts := { p.counts with brakeDrop := bump p.counts.brakeDrop } } := if_neg h

theorem faultMoving_braked (k : FigIx) (why : FaultReason) (p : Part) : faultMoving k why p =
    latchEvent 16 (setFigure k (·.asFaulted why) (appendBrake ((p.figures.read k).brake.getD (127, 255)).1
      ((p.figures.read k).brake.getD (127, 255)).2
      { p with out := { p.out with motion := p.out.motion.filter fun m => m.figure ≠ k } })) := by
  rw [faultMoving, brakeFigure_eq]
  rfl

/-! ## The scan (R91) -/

/-- R91: the record of figure `k` in `p` reads well with the node and the channel. -/
def figureAt (node channel : Nat) (p : Part) (k : FigIx) : Option FigIx :=
  match (readFigure k figureMappingWords p).1 with
  | none => none
  | some rec => if rec.node ≠ 0 && rec.node = node && rec.channel = channel then some k else none

theorem scanFigures_fst (node channel : Nat) (ks : List FigIx) (p : Part) :
    (scanFigures node channel ks p).1 = ks.findSome? (figureAt node channel p) := by
  have told : ∀ q : Part, q.table.words = p.table.words →
      (scanFigures node channel ks q).1 = ks.findSome? (figureAt node channel p) := by
    induction ks with
    | nil => exact fun _ _ => rfl
    | cons k rest ih =>
      intro q words
      have later := ih (readFigure k figureMappingWords q).2 ((readFigure_rested _ _ q).words.trans words)
      have read := readFigure_fst_congr words k figureMappingWords
      rw [List.findSome?_cons, figureAt, ← read, scanFigures]
      cases (readFigure k figureMappingWords q).1 with
      | none => exact later
      | some rec =>
        dsimp only
        by_cases own : (rec.node ≠ 0 && rec.node = node && rec.channel = channel) = true
        · rw [if_pos own, if_pos own]
        · rw [if_neg own, if_neg own]
          exact later
  exact told p rfl

theorem figureAt_eq_some {node channel : Nat} {p : Part} {k k' : FigIx} :
    figureAt node channel p k = some k' ↔ k' = k ∧ ∃ rec, (readFigure k [0] p).1 = some rec ∧
      rec.node ≠ 0 ∧ rec.node = node ∧ rec.channel = channel := by
  rw [figureAt, show figureMappingWords = [0] from rfl]
  cases (readFigure k [0] p).1 with
  | none => simp
  | some rec =>
    dsimp only
    split
    next own =>
      simp only [Bool.and_eq_true, decide_eq_true_eq, and_assoc] at own
      exact ⟨fun h => ⟨(Option.some.inj h).symm, rec, rfl, own⟩, fun h => by rw [h.1]⟩
    next other =>
      simp only [Bool.and_eq_true, decide_eq_true_eq, and_assoc] at other
      constructor
      · intro h
        cases h
      · rintro ⟨-, rec', found, fits⟩
        obtain rfl := Option.some.inj found
        exact absurd fits other

theorem figureAt_eq_none {node channel : Nat} {p : Part} {k : FigIx} :
    figureAt node channel p k = none ↔ ¬ ∃ rec, (readFigure k [0] p).1 = some rec ∧
      rec.node ≠ 0 ∧ rec.node = node ∧ rec.channel = channel := by
  constructor
  · intro none fits
    have := figureAt_eq_some.mpr ⟨rfl, fits⟩
    rw [none] at this
    cases this
  · intro none
    cases found : figureAt node channel p k with
    | none => rfl
    | some x => exact absurd (figureAt_eq_some.mp found).2 none

theorem figureAt_congr {p q : Part} (words : q.table.words = p.table.words) (node channel : Nat) :
    figureAt node channel q = figureAt node channel p := by
  funext k
  rw [figureAt, figureAt, readFigure_fst_congr words]

/-- R81: a read of a figure's record changes the brake address alone of any figure. -/
theorem readFigure_brake (j k : FigIx) (o : List Nat) (p : Part) :
    ∃ b, (readFigure j o p).2.figures.read k = { p.figures.read k with brake := b } := by
  by_cases h : k = j
  · subst h
    rw [readFigure_own]
    cases (readFigure k o p).1 with
    | none => exact ⟨_, rfl⟩
    | some rec => exact ⟨_, LiveFigure.braked_eq _ rec⟩
  · exact ⟨_, (readFigure_rested j o p).others k h⟩

theorem scanFigures_rested (node channel : Nat) (ks : List FigIx) (p : Part) :
    Rested (fun _ => True) p (scanFigures node channel ks p).2 := by
  induction ks generalizing p with
  | nil => exact Rested.refl _ p
  | cons k rest ih =>
    have all := ((readFigure_rested k figureMappingWords p).mono (T := fun _ => True) fun _ _ => trivial).trans
      (ih (readFigure k figureMappingWords p).2)
    rw [scanFigures]
    cases (readFigure k figureMappingWords p).1 with
    | none => exact all
    | some rec => dsimp only; split <;> exact all

theorem scanFigures_brake (node channel : Nat) (ks : List FigIx) (p : Part) (k : FigIx) :
    ∃ b, (scanFigures node channel ks p).2.figures.read k = { p.figures.read k with brake := b } := by
  induction ks generalizing p with
  | nil => exact ⟨_, rfl⟩
  | cons j rest ih =>
    obtain ⟨b, read⟩ := readFigure_brake j k figureMappingWords p
    obtain ⟨b', later⟩ := ih (readFigure j figureMappingWords p).2
    have all : ∃ b, (scanFigures node channel rest (readFigure j figureMappingWords p).2).2.figures.read k =
        { p.figures.read k with brake := b } := ⟨b', by rw [later, read]⟩
    rw [scanFigures]
    cases (readFigure j figureMappingWords p).1 with
    | none => exact all
    | some rec => dsimp only; split <;> exact all

/-! ## POSITION reports (R91 to R93) -/

section
variable {e : IntakeEntry} {rest : List IntakeEntry} {p : Part}

theorem takePositionReport_other (front : p.filter.figures.entries = e :: rest)
    (other : ¬ (e.frame.kind = Kind.position ∧ e.frame.payload.length = 4)) : takePositionReport p =
      positionUnmatched (setFiguresIntake (fun q => { q with rejected := some e.hit })
        (setFiguresIntake (fun q => { q with entries := rest }) p)) := by
  rw [takePositionReport, front]
  refine if_pos ?_
  rw [Bool.or_eq_true, decide_eq_true_iff, decide_eq_true_iff]
  exact not_and_or.mp other

theorem takePositionReport_position (front : p.filter.figures.entries = e :: rest)
    (good : e.frame.kind = Kind.position ∧ e.frame.payload.length = 4) : takePositionReport p =
      match (scanFigures e.frame.source.toNat (e.frame.arg 0) allFigures (setFiguresIntake (fun q => { q with entries := rest }) p)).1 with
      | none => positionUnmatched
          (scanFigures e.frame.source.toNat (e.frame.arg 0) allFigures (setFiguresIntake (fun q => { q with entries := rest }) p)).2
      | some k => reportFigure k (signedHalf (e.frame.number 1 2)) e.stamp (e.frame.arg 3 ≠ 0)
          (scanFigures e.frame.source.toNat (e.frame.arg 0) allFigures (setFiguresIntake (fun q => { q with entries := rest }) p)).2 := by
  rw [takePositionReport, front]
  refine if_neg ?_
  rw [Bool.or_eq_true, decide_eq_true_iff, decide_eq_true_iff]
  exact not_or.mpr ⟨not_not.mpr good.1, not_not.mpr good.2⟩

end

section
variable {k : FigIx} {z : Int} {stamp : Nat} {p : Part}

theorem reportFigure_standing {ends : Bool} (h : ¬ (p.figures.read k).moving = true) : reportFigure k z stamp ends p =
    setFigure k (fun g => { g with reported := some z, reportStamp := some stamp }) p := if_neg h

theorem reportFigure_moving {ends : Bool} (h : (p.figures.read k).moving = true) : reportFigure k z stamp ends p =
    reportMoving k z stamp ends (setFigure k (fun g => { g with reported := some z, reportStamp := some stamp }) p) := if_pos h

theorem reportMoving_table (h : (readFigure k [3, 4] (setFigure k (fun g => { g with silence := some stamp }) p)).1 = none) :
    reportMoving k z stamp false p = (readFigure k [3, 4] (setFigure k (fun g => { g with silence := some stamp }) p)).2 := by
  rw [reportMoving]
  dsimp only
  rw [if_neg Bool.false_ne_true, show figureStallWords = [3, 4] from rfl, h]

theorem reportMoving_limits {rec : FigureRecord}
    (h : (readFigure k [3, 4] (setFigure k (fun g => { g with silence := some stamp }) p)).1 = some rec) :
    reportMoving k z stamp false p =
      testStall k rec z stamp (readFigure k [3, 4] (setFigure k (fun g => { g with silence := some stamp }) p)).2 := by
  rw [reportMoving]
  dsimp only
  rw [if_neg Bool.false_ne_true, show figureStallWords = [3, 4] from rfl, h]

theorem LiveFigure.stalled_eq (g : LiveFigure) (rec : FigureRecord) (now : Nat) :
    g.stalled rec now = g.stall.any fun t => rec.stallTime ≤ now - t := by
  rw [stalled]
  cases g.stall <;> rfl

/-- R93: the stall test of a figure at setpoint `at_` whose stall began at `since`. -/
theorem testStall_eq {rec : FigureRecord} {setpoint : Int} {since : Option Nat}
    (setpoint_eq : (p.figures.read k).setpoint = setpoint) (stall_eq : (p.figures.read k).stall = since) :
    let start := if (decide (rec.followLimit < (setpoint - z).natAbs)) = true then some (since.getD stamp) else none
    testStall k rec z stamp p =
      if start.any (fun t => rec.stallTime ≤ p.lineTime - t) then
        faultMoving k .stall (setFigure k (fun g => { g with stall := start }) p)
      else setFigure k (fun g => { g with stall := start }) p := by
  intro start
  have compared : setFigure k (·.compared rec z stamp) p = setFigure k (fun g => { g with stall := start }) p := by
    refine setFigure_congr ?_
    simp only [LiveFigure.compared, setpoint_eq, stall_eq, start, decide_eq_true_eq]
  rw [testStall, compared, LiveFigure.stalled_eq, setFigure_own]
  rfl

end

/-- Settles O35. -/
theorem positionReportIsStored : Obligations.PositionReportIsStored := by
  constructor
  · intro k why p drive brake cleared braked
    have appended : appendBrake drive.1 drive.2 cleared = braked := by
      by_cases room : p.out.guard.length < 16
      · rw [appendBrake_room (p := cleared) room]
        exact (if_pos room).symm
      · rw [appendBrake_full (p := cleared) room]
        exact (if_neg room).symm
    rw [← appended]
    exact faultMoving_braked k why p
  intro s e rest running front p good scan z mapped
  have takes : exec .positionReportTaken s = .next (s.withPart (takePositionReport s.part)) := run_running _ s running
  have found : scan.1 = allFigures.findSome? (figureAt e.frame.source.toNat (e.frame.arg 0) s.part) := by
    rw [← figureAt_congr (p := s.part) (q := p) rfl]
    exact scanFigures_fst _ _ allFigures p
  refine ⟨fun other => ?_, ?_, fun k => ?_, fun fits none => ?_, ?_⟩
  · rw [takes, takePositionReport_other front other]
    rfl
  · rw [found, allFigures, findSome?_finRange_none]
    exact forall_congr' fun k => figureAt_eq_none
  · rw [found, allFigures, findSome?_finRange]
    constructor
    · rintro ⟨i, own, first⟩
      obtain ⟨rfl, fits⟩ := figureAt_eq_some.mp own
      exact ⟨fits, fun j less => figureAt_eq_none.mp (first j less)⟩
    · rintro ⟨fits, first⟩
      exact ⟨k, figureAt_eq_some.mpr ⟨rfl, fits⟩, fun j less => figureAt_eq_none.mpr (first j less)⟩
  · rw [takes, takePositionReport_position front fits, show (scanFigures _ _ allFigures _).1 = Option.none from none]
    rfl
  · intro k fits found g stored heard limits
    have number : e.frame.number 1 2 = e.frame.arg 1 * 256 + e.frame.arg 2 := number_two _ _ (by omega)
    have reported : exec .positionReportTaken s = .next (s.withPart (reportFigure k z e.stamp (e.frame.arg 3 ≠ 0) scan.2)) := by
      rw [takes, takePositionReport_position front fits, show (scanFigures _ _ allFigures _).1 = some k from found, number]
    obtain ⟨b, own⟩ : ∃ b, scan.2.figures.read k = { g with brake := b } := scanFigures_brake _ _ allFigures p k
    have time : scan.2.lineTime = s.part.lineTime := (scanFigures_rested _ _ allFigures p).lineTime
    clear_value g
    have moves : (g.state = .driven ∨ g.state = .homing) → (scan.2.figures.read k).moving = true := by
      intro h
      rw [own]
      exact (LiveFigure.moving_iff _).mpr h
    have still : e.frame.arg 3 = 0 → decide (e.frame.arg 3 ≠ 0) = false := fun h => decide_eq_false (not_not.mpr h)
    refine ⟨fun stands => ?_, fun moving ends => ?_, fun moving middle none => ?_, ?_⟩
    · rw [reported, reportFigure_standing]
      rw [own, LiveFigure.moving_iff]
      rcases stands with h | h | h <;> rw [show ({ g with brake := b } : LiveFigure).state = g.state from rfl, h] <;> simp
    · rw [reported, reportFigure_moving (moves moving), decide_eq_true ends]
      rfl
    · rw [reported, reportFigure_moving (moves moving), still middle]
      exact congrArg (fun q => Host.Outcome.next (s.withPart q)) (reportMoving_table none)
    · intro rec moving middle read off start q
      obtain ⟨b', limited⟩ := readFigure_brake k k [3, 4] heard
      have heard_own : heard.figures.read k = { scan.2.figures.read k with
          reported := some z, reportStamp := some e.stamp, silence := some e.stamp } := by
        rw [setFigure_own, setFigure_own]
      have lineTime : limits.2.lineTime = s.part.lineTime := (readFigure_rested k [3, 4] heard).lineTime.trans time
      have tested := testStall_eq (k := k) (z := z) (stamp := e.stamp) (p := limits.2) (rec := rec) (setpoint := g.setpoint)
        (since := g.stall) (by rw [limited, heard_own, own]) (by rw [limited, heard_own, own])
      rw [lineTime] at tested
      rw [reported, reportFigure_moving (moves moving), still middle]
      exact congrArg (fun q => Host.Outcome.next (s.withPart q)) ((reportMoving_limits read).trans tested)

end Sys2Proof.Machine
end

section
/-! The motion period (R82 to R89, R93, R94). -/

namespace Sys2Proof.Machine

/-! ## The target of a driven figure (R83 to R86) -/

section
variable {g : LiveFigure} {rec : FigureRecord} {p : Part} {i : SlotIx} {d : Drive} {item : FigureItem}

/-- R83: before its item begins, a figure stays where it is. -/
theorem drivenTarget_before (owner : g.owner = some i) (drive : g.drive = some d)
    (h : (p.slots.read i).copy.items[d.item.val]? = some item) (early : pathTime (p.slots.read i) item.offset p.lineTime < 0) :
    drivenTarget g rec p = (some g.setpoint, p) := by
  rw [drivenTarget, owner, drive]
  dsimp only
  rw [h]
  exact if_pos early

theorem drivenTarget_path (owner : g.owner = some i) (drive : g.drive = some d)
    (h : (p.slots.read i).copy.items[d.item.val]? = some item) (begun : 0 ≤ pathTime (p.slots.read i) item.offset p.lineTime) :
    drivenTarget g rec p = ((readPath item.path p).1.map fun w =>
      if d.role = .twin ∧ rec.mirror = true then
        max (-32768) (min 32767 (2 * rec.home - w.target (pathTime (p.slots.read i) item.offset p.lineTime).toNat))
      else w.target (pathTime (p.slots.read i) item.offset p.lineTime).toNat, (readPath item.path p).2) := by
  rw [drivenTarget, owner, drive]
  dsimp only
  rw [h]
  refine (if_neg (not_lt.mpr begun)).trans ?_
  simp only [Bool.and_eq_true, decide_eq_true_eq]
  rfl

end

/-! ## The POSE frame (R87 to R89) -/

section
variable {k : FigIx} {rec : FigureRecord} {target : Int} {p : Part}

theorem sendPose_full (h : 32 ≤ p.out.motion.length) :
    sendPose k rec target p = setCounts (fun c => { c with motionSkip := bump c.motionSkip }) p :=
  if_neg (not_lt.mpr h)

/-- R88, R89: the step is taken and its frame appended to OQ-MOTION, before the lag event and the rest at home. -/
def stepSent (k : FigIx) (rec : FigureRecord) (target : Int) (p : Part) : Part :=
  let z := rec.stepTowards (p.figures.read k).setpoint target
  let lag := rec.limited (p.figures.read k).setpoint target
  setFigure k (fun x => { x with setpoint := z, lag := lag })
    { p with
      out := { p.out with motion := p.out.motion ++ [⟨k, poseFrame rec z lag (Config.freeByte p.freeUsed) p⟩] }
      freeUsed := p.freeUsed + 1 }

/-- R89: source 30 is latched when the lag flag goes from clear to set. -/
def stepLagged (k : FigIx) (rec : FigureRecord) (target : Int) (p : Part) : Part :=
  if rec.limited (p.figures.read k).setpoint target = true ∧ (p.figures.read k).lag = false
  then latchEvent 30 (stepSent k rec target p) else stepSent k rec target p

theorem sendPose_room (h : p.out.motion.length < 32) : sendPose k rec target p =
    if (p.figures.read k).state = .homing ∧ rec.stepTowards (p.figures.read k).setpoint target = rec.limit rec.home
    then setFigure k LiveFigure.atRest (stepLagged k rec target p) else stepLagged k rec target p := by
  have lagged : (if (rec.limited (p.figures.read k).setpoint target && !(p.figures.read k).lag) = true
      then latchEvent 30 (stepSent k rec target p) else stepSent k rec target p) = stepLagged k rec target p := by
    simp only [stepLagged, Bool.and_eq_true, Bool.not_eq_true']
  refine (if_pos h).trans ?_
  simp only [Bool.and_eq_true, decide_eq_true_eq]
  rw [← lagged]
  simp only [Bool.and_eq_true]
  rfl

theorem stepLagged_noted (k : FigIx) (rec : FigureRecord) (target : Int) (p : Part) :
    Noted (stepSent k rec target p) (stepLagged k rec target p) := by
  unfold stepLagged
  split
  · exact latchEvent_noted _ _
  · exact Noted.refl _

theorem stepLagged_own (k : FigIx) (rec : FigureRecord) (target : Int) (p : Part) :
    (stepLagged k rec target p).figures.read k = { p.figures.read k with
      setpoint := rec.stepTowards (p.figures.read k).setpoint target, lag := rec.limited (p.figures.read k).setpoint target } := by
  rw [(stepLagged_noted k rec target p).figures, stepSent, setFigure_own]

theorem stepLagged_motion (k : FigIx) (rec : FigureRecord) (target : Int) (p : Part) :
    (stepLagged k rec target p).out.motion = p.out.motion ++ [⟨k, poseFrame rec (rec.stepTowards (p.figures.read k).setpoint target)
      (rec.limited (p.figures.read k).setpoint target) (Config.freeByte p.freeUsed) p⟩] := by
  rw [(stepLagged_noted k rec target p).frame]
  rfl

end

/-! ## The visit of a figure (R82) -/

theorem LiveFigure.silent_eq (g : LiveFigure) (p : Part) :
    g.silent p = g.silence.any fun t => p.settings.reportTimeout ≤ p.lineTime - t := by
  rw [silent]
  cases g.silence <;> rfl

section
variable {k : FigIx} {rec : FigureRecord} {p : Part}

/-- R82, step 5: the target of a fitted figure, and the part once its path has been read. -/
def aimOf (k : FigIx) (rec : FigureRecord) (p : Part) : Option Int × Part :=
  if (p.figures.read k).state = .homing then (some rec.home, p) else drivenTarget (p.figures.read k) rec p

theorem aimOf_noted (k : FigIx) (rec : FigureRecord) (p : Part) : Noted p (aimOf k rec p).2 := by
  unfold aimOf
  split
  · exact Noted.refl p
  · exact drivenTarget_noted _ _ p

theorem visitTarget_eq (k : FigIx) (rec : FigureRecord) (p : Part) : visitTarget k rec p =
    match (aimOf k rec p).1 with
    | none => faultMoving k .table (aimOf k rec p).2
    | some z => sendPose k rec z (aimOf k rec p).2 := by
  rw [visitTarget, aimOf]
  dsimp only
  split <;> rfl

theorem visitFigure_none (moving : (p.figures.read k).moving = true)
    (h : (readFigure k (figurePeriodWords (p.figures.read k).takesHome) p).1 = none) : visitFigure k p =
      faultMoving k .table (readFigure k (figurePeriodWords (p.figures.read k).takesHome) p).2 := by
  refine (if_pos moving).trans ?_
  rw [h]

theorem visitFigure_some (moving : (p.figures.read k).moving = true)
    (h : (readFigure k (figurePeriodWords (p.figures.read k).takesHome) p).1 = some rec) : visitFigure k p =
      if rec.node = 0 then visitUnfitted k (readFigure k (figurePeriodWords (p.figures.read k).takesHome) p).2
      else visitFitted k rec (readFigure k (figurePeriodWords (p.figures.read k).takesHome) p).2 := by
  refine (if_pos moving).trans ?_
  rw [h]

theorem visitUnfitted_driven (h : (p.figures.read k).state = .driven) :
    visitUnfitted k p = setFigure k (fun g => { g with silence := some p.lineTime }) p :=
  setFigure_congr (if_pos h)

theorem visitUnfitted_homing (h : (p.figures.read k).state = .homing) :
    visitUnfitted k p = setFigure k LiveFigure.atRest p :=
  setFigure_congr (if_neg (by rw [h]; decide))

theorem visitFitted_silent (h : (p.figures.read k).silent p = true) : visitFitted k rec p = faultMoving k .silent p := if_pos h

theorem visitFitted_stalled (heard : (p.figures.read k).silent p = false)
    (h : (p.figures.read k).stalled rec p.lineTime = true) : visitFitted k rec p = faultMoving k .stall p :=
  (if_neg (by rw [heard]; exact Bool.false_ne_true)).trans (if_pos h)

theorem outside_iff (lower z upper : Int) :
    (decide (z < lower) || decide (upper < z)) = !decide (lower ≤ z ∧ z ≤ upper) := by
  rw [Bool.decide_and, Bool.not_and, ← decide_not, ← decide_not]
  simp only [not_le]

theorem visitFitted_outside (heard : (p.figures.read k).silent p = false) (runs : (p.figures.read k).stalled rec p.lineTime = false)
    (h : decide (rec.lower ≤ (p.figures.read k).setpoint ∧ (p.figures.read k).setpoint ≤ rec.upper) = false) :
    visitFitted k rec p = faultMoving k .table p := by
  refine (if_neg (by rw [heard]; exact Bool.false_ne_true)).trans ((if_neg (by rw [runs]; exact Bool.false_ne_true)).trans (if_pos ?_))
  rw [outside_iff, h]
  rfl

theorem visitFitted_within (heard : (p.figures.read k).silent p = false) (runs : (p.figures.read k).stalled rec p.lineTime = false)
    (h : decide (rec.lower ≤ (p.figures.read k).setpoint ∧ (p.figures.read k).setpoint ≤ rec.upper) = true) :
    visitFitted k rec p = visitTarget k rec p := by
  refine (if_neg (by rw [heard]; exact Bool.false_ne_true)).trans ((if_neg (by rw [runs]; exact Bool.false_ne_true)).trans (if_neg ?_))
  rw [outside_iff, h]
  decide

end

/-! ## A figure alone in motion (R82) -/

theorem foldl_visit_standing (ks : List FigIx) (p : Part) (h : ∀ j ∈ ks, (p.figures.read j).moving = false) :
    ks.foldl (fun q j => visitFigure j q) p = p := by
  induction ks with
  | nil => rfl
  | cons j rest ih =>
    rw [List.foldl_cons, visitFigure_standing (h j List.mem_cons_self)]
    exact ih fun i hi => h i (List.mem_cons_of_mem j hi)

theorem motionPeriod_alone {p : Part} (period : p.lineTime % 20 = 0) (k : FigIx)
    (h : ∀ j, j ≠ k → (p.figures.read j).moving = false) : motionPeriod p = visitFigure k p := by
  obtain ⟨before, after, all⟩ := List.append_of_mem (mem_allFigures k)
  have once := allFigures_once
  rw [all, List.nodup_middle, List.nodup_cons] at once
  have fresh : ∀ j, j ∈ before ∨ j ∈ after → j ≠ k := by
    rintro j hj rfl
    exact once.1 (List.mem_append.mpr hj)
  rw [motionPeriod, if_pos period, all, List.foldl_append, List.foldl_cons,
    foldl_visit_standing before p fun j hj => h j (fresh j (.inl hj))]
  refine foldl_visit_standing after _ fun j hj => ?_
  have other := fresh j (.inr hj)
  rw [(visitFigure_posed k p).others j other]
  exact h j other

/-! ## The visit, form by form -/

/-- R81: a read of a figure's record draws no free byte. -/
theorem readFigure_freeUsed (k : FigIx) (o : List Nat) (p : Part) : (readFigure k o p).2.freeUsed = p.freeUsed := by
  obtain ⟨q, hq, h | ⟨rec, h⟩⟩ := readFigure_frame k o p
  · rw [h, hq.frame]
  · rw [h, hq.frame]
    rfl

/-- A part that a read of figure `k`'s record leaves: of the figure, the brake address alone is another. -/
structure RecordRead (k : FigIx) (p q : Part) : Prop where
  rested : Rested (· = k) p q
  own : ∃ b, q.figures.read k = { p.figures.read k with brake := b }
  freeUsed : q.freeUsed = p.freeUsed

theorem readFigure_read (k : FigIx) (o : List Nat) (p : Part) : RecordRead k p (readFigure k o p).2 :=
  ⟨readFigure_rested k o p, readFigure_brake k k o p, readFigure_freeUsed k o p⟩

theorem RecordRead.noted {k : FigIx} {p q r : Part} (h : RecordRead k p q) (n : Noted q r) : RecordRead k p r where
  rested := h.rested.trans (n.rested _)
  own := by
    obtain ⟨b, own⟩ := h.own
    exact ⟨b, by rw [n.figures, own]⟩
  freeUsed := by rw [n.frame]; exact h.freeUsed

theorem RecordRead.motion {k : FigIx} {p q : Part} (h : RecordRead k p q) : q.out.motion = p.out.motion := by
  rw [h.rested.out]

section
variable {k : FigIx} {p q : Part}

theorem RecordRead.state (h : RecordRead k p q) : (q.figures.read k).state = (p.figures.read k).state := by
  obtain ⟨b, own⟩ := h.own; rw [own]
theorem RecordRead.setpoint (h : RecordRead k p q) : (q.figures.read k).setpoint = (p.figures.read k).setpoint := by
  obtain ⟨b, own⟩ := h.own; rw [own]
theorem RecordRead.lag (h : RecordRead k p q) : (q.figures.read k).lag = (p.figures.read k).lag := by
  obtain ⟨b, own⟩ := h.own; rw [own]

theorem RecordRead.silent (h : RecordRead k p q) : (q.figures.read k).silent q =
    (p.figures.read k).silence.any fun t => p.settings.reportTimeout ≤ p.lineTime - t := by
  obtain ⟨b, own⟩ := h.own
  rw [LiveFigure.silent_eq, own, h.rested.settings, h.rested.lineTime]

theorem RecordRead.stalled (h : RecordRead k p q) (rec : FigureRecord) : (q.figures.read k).stalled rec q.lineTime =
    (p.figures.read k).stall.any fun t => rec.stallTime ≤ p.lineTime - t := by
  obtain ⟨b, own⟩ := h.own
  rw [LiveFigure.stalled_eq, own, h.rested.lineTime]

end

/-- R82, step 6, of a figure whose target is known. -/
theorem visitFigure_within {k : FigIx} {p : Part} {rec : FigureRecord} (moving : (p.figures.read k).moving = true)
    (h : (readFigure k (figurePeriodWords (p.figures.read k).takesHome) p).1 = some rec) (fitted : rec.node ≠ 0)
    (heard : ((p.figures.read k).silence.any fun t => p.settings.reportTimeout ≤ p.lineTime - t) = false)
    (runs : ((p.figures.read k).stall.any fun t => rec.stallTime ≤ p.lineTime - t) = false)
    (within : decide (rec.lower ≤ (p.figures.read k).setpoint ∧ (p.figures.read k).setpoint ≤ rec.upper) = true) :
    visitFigure k p = visitTarget k rec (readFigure k (figurePeriodWords (p.figures.read k).takesHome) p).2 := by
  have read := readFigure_read k (figurePeriodWords (p.figures.read k).takesHome) p
  rw [visitFigure_some moving h, if_neg fitted, visitFitted_within (read.silent.trans heard) ((read.stalled rec).trans runs)
    (by rw [read.setpoint]; exact within)]

/-- Settles O34. -/
theorem motionPeriodSendsOneStepToTheTarget : Obligations.MotionPeriodSendsOneStepToTheTarget := by
  refine ⟨?_, fun s running period => ?_, ?_, ?_⟩
  · intro s k rec target running period g r alone found fitted aim heard runs lower upper room goal z lag home f
    have moving : g.moving = true := (LiveFigure.moving_iff g).mpr (aim.elim (fun h => .inr h.1) fun h => .inl h.1)
    have read : RecordRead k s.part r.2 := readFigure_read k _ s.part
    have takes : exec .motionPeriod s = .next (s.withPart (motionPeriod s.part)) := run_running _ s running
    have alone : motionPeriod s.part = visitFigure k s.part := by
      refine motionPeriod_alone period k fun j other => Bool.eq_false_iff.mpr fun moves => ?_
      obtain ⟨notDriven, notHoming⟩ := alone j other
      exact ((LiveFigure.moving_iff _).mp moves).elim notDriven notHoming
    have aimed : (aimOf k rec r.2).1 = some target := by
      rw [aimOf]
      rcases aim with ⟨homing, rfl⟩ | ⟨driven, path⟩
      · rw [if_pos (read.state.trans homing)]
      · rw [if_neg (by rw [read.state, show (s.part.figures.read k).state = .driven from driven]; decide)]
        exact path
    have visited : visitFigure k s.part = sendPose k rec target (aimOf k rec r.2).2 := by
      rw [visitFigure_within moving found fitted
        ((Option.any_eq_false _ _).mpr fun t is => decide_eq_false (not_le.mpr (heard t is)))
        ((Option.any_eq_false _ _).mpr fun t is => decide_eq_false (not_le.mpr (runs t is)))
        (decide_eq_true ⟨lower, upper⟩), visitTarget_eq, aimed]
    have there : RecordRead k s.part (aimOf k rec r.2).2 := read.noted (aimOf_noted k rec r.2)
    refine ⟨_, takes, ?_⟩
    clear_value r
    rw [withPart_part, alone, visited]
    have step : rec.stepTowards ((aimOf k rec r.2).2.figures.read k).setpoint target = z := by rw [there.setpoint]; rfl
    have limited : rec.limited ((aimOf k rec r.2).2.figures.read k).setpoint target = lag := by rw [there.setpoint]; rfl
    have comes : (((aimOf k rec r.2).2.figures.read k).state = .homing ∧
        rec.stepTowards ((aimOf k rec r.2).2.figures.read k).setpoint target = rec.limit rec.home) ↔ home = true := by
      rw [there.state, step, decide_eq_true_eq]
      refine and_congr_right fun homing => ?_
      rcases aim with ⟨-, rfl⟩ | ⟨driven, -⟩
      · rfl
      · exact absurd (homing.symm.trans driven) (by decide)
    have sent := stepLagged_motion k rec target (aimOf k rec r.2).2
    have own := stepLagged_own k rec target (aimOf k rec r.2).2
    have others := (sendPose_posed k rec target (aimOf k rec r.2).2).others
    rw [there.motion, step, limited, there.freeUsed] at sent
    rw [step, limited] at own
    have frame : poseFrame rec z lag (Config.freeByte s.part.freeUsed) (aimOf k rec r.2).2 = f := by
      rw [poseFrame, there.rested.settings]
    rw [frame] at sent
    have form := sendPose_room (k := k) (rec := rec) (target := target) (p := (aimOf k rec r.2).2) (there.motion ▸ room)
    have stays : ∀ j, j ≠ k → (sendPose k rec target (aimOf k rec r.2).2).figures.read j = s.part.figures.read j :=
      fun j other => (others j other).trans (there.rested.others j other)
    refine ⟨?_, ?_, ?_, fun away => ?_, stays⟩
    all_goals
      rw [form]
      by_cases is : home = true
    · rw [if_pos (comes.mpr is)]
      exact sent
    · rw [if_neg fun h => is (comes.mp h)]
      exact sent
    · rw [if_pos (comes.mpr is), setFigure_own, own]
      rfl
    · rw [if_neg fun h => is (comes.mp h), own]
    · rw [if_pos (comes.mpr is), setFigure_own, if_pos is]
      rfl
    · rw [if_neg fun h => is (comes.mp h), own, if_neg is]
      exact there.state
    · rw [away] at is
      cases is
    · rw [if_neg fun h => is (comes.mp h), own]
  · rw [show exec .motionPeriod s = .next (s.withPart (motionPeriod s.part)) from run_running _ s running, motionPeriod,
      if_pos period]
    rfl
  · intro g rec p i d item owner drive listed x t period τ path
    exact ⟨fun early => drivenTarget_before owner drive listed early, fun begun => drivenTarget_path owner drive listed begun⟩
  · intro k p g r
    have read : RecordRead k p r.2 := readFigure_read k _ p
    refine ⟨fun notDriven notHoming => visitFigure_standing (Bool.eq_false_iff.mpr fun moves =>
      ((LiveFigure.moving_iff _).mp moves).elim notDriven notHoming), fun stands => ?_⟩
    have moving : g.moving = true := (LiveFigure.moving_iff g).mpr stands
    refine ⟨fun none => visitFigure_none moving none, ?_⟩
    intro rec found silent stalled within
    have visited : rec.node ≠ 0 → visitFigure k p = visitFitted k rec r.2 := fun fitted =>
      (visitFigure_some moving found).trans (if_neg fitted)
    have unfitted : rec.node = 0 → visitFigure k p = visitUnfitted k r.2 := fun bare =>
      (visitFigure_some moving found).trans (if_pos bare)
    refine ⟨fun bare driven => ?_, fun bare homing => ?_, fun fitted quiet => ?_, fun fitted heard stuck => ?_,
      fun fitted heard runs outside => ?_, fun fitted heard runs inside => ?_⟩
    · rw [unfitted bare, visitUnfitted_driven (read.state.trans driven), read.rested.lineTime]
    · rw [unfitted bare, visitUnfitted_homing (read.state.trans homing)]
      rfl
    · rw [visited fitted, visitFitted_silent (read.silent.trans quiet)]
    · rw [visited fitted, visitFitted_stalled (read.silent.trans heard) ((read.stalled rec).trans stuck)]
    · rw [visited fitted, visitFitted_outside (read.silent.trans heard) ((read.stalled rec).trans runs)
        (by rw [read.setpoint]; exact outside)]
    · intro aim
      have aimed : aim = aimOf k rec r.2 := by rw [aimOf, read.state]
      have there : RecordRead k p aim.2 := aimed ▸ read.noted (aimOf_noted k rec r.2)
      have visited : visitFigure k p = visitTarget k rec r.2 := visitFigure_within moving found fitted heard runs inside
      rw [visitTarget_eq, ← aimed] at visited
      have homeward : g.state = .homing → aim.1 = some rec.home := fun homing => congrArg Prod.fst (if_pos homing)
      clear_value aim r
      refine ⟨fun none => by rw [visited, none], ?_⟩
      intro target known goal z lag f sent lagged
      have send : visitFigure k p = sendPose k rec target aim.2 := by rw [visited, known]
      refine ⟨fun full => by rw [send, sendPose_full (there.motion ▸ full)], fun room => ?_⟩
      have step : rec.stepTowards (aim.2.figures.read k).setpoint target = z := by rw [there.setpoint]; rfl
      have limited : rec.limited (aim.2.figures.read k).setpoint target = lag := by rw [there.setpoint]; rfl
      have frame : poseFrame rec z lag (Config.freeByte aim.2.freeUsed) aim.2 = f := by
        rw [poseFrame, there.rested.settings]
      have sends : stepSent k rec target aim.2 = sent := by rw [stepSent, step, limited, frame]
      have lags : stepLagged k rec target aim.2 = lagged := by rw [stepLagged, limited, there.lag, sends]
      have comes : ((aim.2.figures.read k).state = .homing ∧
          rec.stepTowards (aim.2.figures.read k).setpoint target = rec.limit rec.home) ↔ (g.state = .homing ∧ z = goal) := by
        rw [there.state, step]
        refine and_congr_right fun homing => ?_
        obtain rfl := Option.some.inj ((homeward homing).symm.trans known)
        rfl
      rw [send, sendPose_room (there.motion ▸ room), lags]
      simp only [comes]
      rfl
end Sys2Proof.Machine
end

section
/-! The assertion of an ALL-STOP line (R37, R104, R105). -/

namespace Sys2Proof.Machine

/-! ## The pending starts discarded (R37) -/

theorem latchEvent_latch (k j : Nat) (small : k < 32) (p : Part) :
    (latchEvent k p).events.latches.getLsbD j = (p.events.latches.getLsbD j || j == k) := by
  rw [latchEvent_latches, setMember, BitVec.getLsbD_or, BitVec.getLsbD_twoPow, decide_eq_true small, Bool.true_and,
    Bool.beq_eq_decide_eq]
  congr 1
  exact decide_eq_decide.mpr eq_comm

theorem latchEvent_repeat (k j : Nat) (small : k < 32) (p : Part) : (latchEvent k p).events.repeats.getLsbD j =
    (p.events.repeats.getLsbD j || (j == k && p.events.latches.getLsbD j)) := by
  rw [latchEvent_repeats, member]
  by_cases own : j = k
  · subst own
    cases p.events.latches.getLsbD j with
    | false => simp
    | true => simp [setMember, small]
  · have other : (j == k) = false := beq_eq_false_iff_ne.mpr own
    rw [other, Bool.false_and, Bool.or_false]
    split
    · simp [setMember, Ne.symm own]
    · rfl

/-- R37: what the discard of the pending starts of `is`, `c` of them held, leaves. -/
structure Discarded (p q : Part) (c : Nat) : Prop where
  latch : q.events.latches.getLsbD 24 = (p.events.latches.getLsbD 24 || decide (1 ≤ c))
  again : q.events.repeats.getLsbD 24 =
    (p.events.repeats.getLsbD 24 || (p.events.latches.getLsbD 24 && decide (1 ≤ c)) || decide (2 ≤ c))
  latches : ∀ j, j ≠ 24 → q.events.latches.getLsbD j = p.events.latches.getLsbD j
  repeats : ∀ j, j ≠ 24 → q.events.repeats.getLsbD j = p.events.repeats.getLsbD j
  guard : q.out.guard = p.out.guard
  counts : SameButReplyDrop p q

theorem Discarded.none (p : Part) : Discarded p p 0 where
  latch := by simp
  again := by simp
  latches _ _ := rfl
  repeats _ _ := rfl
  guard := rfl
  counts := rfl

/-- R31, R38: one more start is lost. -/
theorem Discarded.more {p q : Part} {c : Nat} {i : SlotIx} {f : Slot → Slot}
    (h : Discarded (loseStart (setSlot i f p)) q c) : Discarded p q (c + 1) where
  latch := by
    have latched := h.latch
    rw [loseStart, latchEvent_latch _ _ (by decide)] at latched
    simpa [Source.startLost] using latched
  again := by
    have repeated := h.again
    rw [loseStart, latchEvent_latch _ _ (by decide), latchEvent_repeat _ _ (by decide)] at repeated
    have one : decide (1 ≤ c + 1) = true := by simp
    have two : decide (2 ≤ c + 1) = decide (1 ≤ c) := decide_eq_decide.mpr (by omega)
    have less : (decide (1 ≤ c) || decide (2 ≤ c)) = decide (1 ≤ c) := by
      rw [← Bool.decide_or]
      exact decide_eq_decide.mpr (by omega)
    rw [one, two, repeated, Bool.or_assoc]
    simp [less, Source.startLost]
  latches j other := by
    rw [h.latches j other, loseStart, latchEvent_latch _ _ (by decide)]
    simp [Source.startLost, other]
  repeats j other := by
    rw [h.repeats j other, loseStart, latchEvent_repeat _ _ (by decide)]
    simp [Source.startLost, other]
  guard := by rw [h.guard, loseStart, (latchEvent_noted _ _).frame]; rfl
  counts := SameButReplyDrop.trans (q := loseStart (setSlot i f p))
    (latchEvent_counts Source.startLost (setSlot i f p)) h.counts

theorem discardPending_none {p : Part} {i : SlotIx} (h : (p.slots.read i).waiting.isSome = false) : discardPending p i = p :=
  if_neg (Bool.eq_false_iff.mp h)

theorem discardPending_some {p : Part} {i : SlotIx} (h : (p.slots.read i).waiting.isSome = true) :
    discardPending p i = loseStart (setSlot i (fun x => { x with waiting := none }) p) := if_pos h

theorem discardPending_other {p : Part} {i j : SlotIx} (other : j ≠ i) : (discardPending p i).slots.read j = p.slots.read j := by
  unfold discardPending
  split
  · rw [loseStart, (latchEvent_noted _ _).slots, setSlot_slots, Bank.read_update_ne _ _ _ _ other]
  · rfl

theorem discardPending_own (p : Part) (i : SlotIx) : ((discardPending p i).slots.read i).waiting = none := by
  unfold discardPending
  split
  · rw [loseStart, (latchEvent_noted _ _).slots, setSlot_slots, Bank.read_update_self]
  · next held => exact Option.not_isSome_iff_eq_none.mp held

theorem foldl_discardPending_figures (is : List SlotIx) (p : Part) : (is.foldl discardPending p).figures = p.figures := by
  induction is generalizing p with
  | nil => rfl
  | cons i rest ih =>
    rw [List.foldl_cons, ih, discardPending]
    split
    · rw [loseStart, (latchEvent_noted _ _).figures]
      rfl
    · rfl

theorem foldl_discardPending (is : List SlotIx) (once : is.Nodup) (p : Part) :
    Discarded p (is.foldl discardPending p) (is.countP fun i => (p.slots.read i).waiting.isSome) ∧
      (∀ j, j ∉ is → (is.foldl discardPending p).slots.read j = p.slots.read j) ∧
      ∀ i ∈ is, ((is.foldl discardPending p).slots.read i).waiting = none := by
  induction is generalizing p with
  | nil => exact ⟨Discarded.none p, fun _ _ => rfl, fun _ h => absurd h List.not_mem_nil⟩
  | cons i rest ih =>
    obtain ⟨fresh, once⟩ := List.nodup_cons.mp once
    obtain ⟨discarded, others, own⟩ := ih once (discardPending p i)
    have count : (rest.countP fun j => ((discardPending p i).slots.read j).waiting.isSome) =
        rest.countP fun j => (p.slots.read j).waiting.isSome := by
      refine List.countP_congr fun j hj => ?_
      rw [discardPending_other fun e => fresh (by rwa [e] at hj)]
    rw [count] at discarded
    rw [List.foldl_cons, List.countP_cons]
    refine ⟨?_, fun j hj => ?_, fun j hj => ?_⟩
    · cases held : (p.slots.read i).waiting.isSome with
      | false =>
        rw [discardPending_none held] at discarded ⊢
        exact discarded
      | true =>
        rw [discardPending_some held] at discarded ⊢
        exact discarded.more
    · obtain ⟨other, later⟩ := not_or.mp fun e => hj (List.mem_cons.mpr e)
      rw [others j later, discardPending_other other]
    · rcases List.mem_cons.mp hj with rfl | later
      · rw [others j fresh, discardPending_own]
      · exact own j later

/-! ## A recomputation while every figure stands (R41, R43) -/

/-- The events, the counts and OQ-GUARD are as they were. -/
def Unheard (p q : Part) : Prop := q.events = p.events ∧ q.counts = p.counts ∧ q.out.guard = p.out.guard

theorem Unheard.trans {p q r : Part} (h : Unheard p q) (k : Unheard q r) : Unheard p r :=
  ⟨k.1.trans h.1, k.2.1.trans h.2.1, k.2.2.trans h.2.2⟩

/-- Every figure is FROZEN or FAULTED. -/
def allStand (p : Part) : Prop := ∀ k, (p.figures.read k).standing

theorem handRetarget_unheard {before : Bank (Option SlotIx) 16} {k : FigIx} {p : Part} (h : allStand p) :
    Unheard p (handRetarget before k p) ∧ allStand (handRetarget before k p) := by
  unfold handRetarget
  dsimp only
  split
  · exact ⟨⟨rfl, rfl, rfl⟩, h⟩
  · rw [retarget_standing (h k)]
    refine ⟨⟨rfl, rfl, rfl⟩, fun j => ?_⟩
    by_cases own : j = k
    · subst own
      rw [setFigure_own]
      exact h j
    · rw [(setFigure_rested k _ p).others j own]
      exact h j

theorem handRetargets_unheard {before : Bank (Option SlotIx) 16} (ks : List FigIx) {p : Part} (h : allStand p) :
    Unheard p (ks.foldl (fun x k => handRetarget before k x) p) := by
  induction ks generalizing p with
  | nil => exact ⟨rfl, rfl, rfl⟩
  | cons k rest ih =>
    obtain ⟨same, stands⟩ := handRetarget_unheard (before := before) (k := k) h
    exact same.trans (ih stands)

theorem recompute_unheard {p : Part} (h : allStand p) : Unheard p (recompute p) := by
  obtain ⟨bells, figures, eq, -, -⟩ := reowned_frame p
  obtain ⟨sent, rest, states, -, removed⟩ := removeStrikes_frame (·.lost p.bellOwner (reowned p).bellOwner) (reowned p)
  have withdrawn : Unheard p (withdrawLost p.bellOwner (reowned p)) ∧ (withdrawLost p.bellOwner (reowned p)).figures = p.figures := by
    rw [withdrawLost, removed, eq]
    exact ⟨⟨rfl, rfl, rfl⟩, rfl⟩
  rw [recompute_eq]
  refine withdrawn.1.trans (handRetargets_unheard _ fun k => ?_)
  rw [withdrawn.2]
  exact h k

/-! ## The part as it stands when its slots stop (R105) -/

theorem addHold_allStop_frame (k : FigIx) (n : LineIx) (p : Part) : ∃ (figures : Bank LiveFigure 16) (motion : List PoseEntry),
    addHold k n true p = { p with figures := figures, out := { p.out with motion := motion } } := by
  unfold addHold
  dsimp only
  split <;> exact ⟨_, _, rfl⟩

theorem foldl_addHold_frame (ks : List FigIx) (n : LineIx) (p : Part) : ∃ (figures : Bank LiveFigure 16) (motion : List PoseEntry),
    ks.foldl (fun x k => addHold k n true x) p = { p with figures := figures, out := { p.out with motion := motion } } := by
  induction ks generalizing p with
  | nil => exact ⟨_, _, rfl⟩
  | cons k rest ih =>
    obtain ⟨figures, motion, first⟩ := addHold_allStop_frame k n p
    obtain ⟨figures', motion', later⟩ := ih (addHold k n true p)
    exact ⟨figures', motion', by rw [List.foldl_cons, later, first]⟩

/-- R105: the BRAKE frame of an ALL-STOP goes to every drive. -/
def stopBrake (p : Part) : Frame :=
  { dest := 127, source := p.settings.ownAddress, kind := Kind.brake, tag := Config.freeByte p.freeUsed, payload := [255] }

theorem stilled_frame (n : LineIx) (p : Part) : ∃ figures : Bank LiveFigure 16, stilled n p = appendBrake 127 255 { p with
    figures := figures, strikes := { p.strikes with queue := [] }, out := { p.out with strike := [], motion := [] } } := by
  obtain ⟨figures, motion, held⟩ := foldl_addHold_frame allFigures n p
  exact ⟨figures, by rw [stilled, held]; rfl⟩

theorem stilled_events (n : LineIx) (p : Part) : (stilled n p).events = p.events := by
  obtain ⟨figures, eq⟩ := stilled_frame n p
  rw [eq, appendBrake]
  split <;> rfl

theorem stilled_room {n : LineIx} {p : Part} (room : p.out.guard.length < 16) :
    (stilled n p).out.guard = p.out.guard ++ [stopBrake p] := by
  obtain ⟨figures, eq⟩ := stilled_frame n p
  rw [eq, appendBrake_room (by exact room)]
  rfl

theorem stilled_full {n : LineIx} {p : Part} (full : 16 ≤ p.out.guard.length) :
    (stilled n p).out.guard = p.out.guard ∧ (stilled n p).counts.brakeDrop = bump p.counts.brakeDrop := by
  obtain ⟨figures, eq⟩ := stilled_frame n p
  rw [eq, appendBrake_full (by exact not_lt.mpr full)]
  exact ⟨rfl, rfl⟩

/-! ## The slots stop (R37) -/

theorem idled_waiting (p : Part) (i : SlotIx) : ((idled p).slots.read i).waiting = (p.slots.read i).waiting := by
  rw [show (idled p).slots = p.slots.each fun x => { x with state := SlotState.idle, hold := none } from rfl, Bank.read_each]

theorem idled_same (p : Part) : Unheard p (idled p) ∧ (idled p).figures = p.figures := ⟨⟨rfl, rfl, rfl⟩, rfl⟩

/-- R37: what the slots' stop leaves of events, counts, OQ-GUARD and pending starts, with every figure standing. -/
theorem stopSlots_discarded {p : Part} (h : allStand p) :
    Discarded p (stopSlots p) ((List.finRange 3).countP fun i => (p.slots.read i).waiting.isSome) ∧
      ∀ i, ((stopSlots p).slots.read i).waiting = none := by
  obtain ⟨same, figures⟩ := idled_same p
  have waiting := idled_waiting p
  rw [stopSlots_eq]
  generalize idled p = q at *
  have all : allSlots = List.finRange 3 := by decide
  obtain ⟨discarded, -, gone⟩ := foldl_discardPending allSlots (by decide) q
  have live : (allSlots.foldl discardPending q).figures = p.figures := (foldl_discardPending_figures allSlots q).trans figures
  obtain ⟨events, counts, guard⟩ := recompute_unheard (p := allSlots.foldl discardPending q) fun k => by rw [live]; exact h k
  have count : (allSlots.countP fun i => (q.slots.read i).waiting.isSome) =
      (List.finRange 3).countP fun i => (p.slots.read i).waiting.isSome := by
    rw [all]
    exact List.countP_congr fun i _ => by rw [waiting]
  rw [count] at discarded
  generalize allSlots.foldl discardPending q = r at *
  constructor
  · exact {
      latch := by rw [events, discarded.latch, same.1]
      again := by rw [events, discarded.again, same.1]
      latches := fun j other => by rw [events, discarded.latches j other, same.1]
      repeats := fun j other => by rw [events, discarded.repeats j other, same.1]
      guard := by rw [guard, discarded.guard, same.2.2]
      counts := by
        have drop := discarded.counts
        unfold SameButReplyDrop at *
        rw [counts, drop, same.2.1] }
  · intro i
    rw [recompute_slots]
    exact gone i (by rw [all]; exact List.mem_finRange i)

theorem claims_idle {slots : Bank Slot 3} (idle : ∀ i, (slots.read i).state = .idle) (lists : SlotIx → Bool) :
    (allSlots.find? fun i => (slots.read i).busy && lists i) = none :=
  List.find?_eq_none.mpr fun i _ => by rw [Slot.busy_of_idle (idle i)]; exact Bool.false_ne_true

/-- Settles O39. -/
theorem allStopStopsTheClock : Obligations.AllStopStopsTheClock := by
  intro s n running run free cls brake
  have takes : exec (.guardAssertion n) s = .next (s.withPart (takeAssertion n s.part)) := run_running _ s running
  let lined := setLine n (fun x => { x with taken := x.config.activeHigh, run := 0, changed := true, settle := none }) s.part
  have noted : Noted lined (latchEvent n.val lined) := latchEvent_noted n.val lined
  have own : (lined.guard.lines.read n).config = (s.part.guard.lines.read n).config := by
    rw [setLine_own]
  have stops : takeAssertion n s.part = allStop n (latchEvent n.val lined) := by
    rw [takeAssertion_eq run free, classEffect, noted.guard, own, cls]
  have latched : ∀ j : Nat, 8 ≤ j → (latchEvent n.val lined).events.latches.getLsbD j = s.part.events.latches.getLsbD j ∧
      (latchEvent n.val lined).events.repeats.getLsbD j = s.part.events.repeats.getLsbD j := by
    intro j high
    have other : (j == n.val) = false := beq_eq_false_iff_ne.mpr (by omega)
    rw [latchEvent_latch _ _ (by omega), latchEvent_repeat _ _ (by omega), other, Bool.false_and, Bool.or_false, Bool.or_false]
    exact ⟨rfl, rfl⟩
  have counts := latchEvent_counts n.val lined
  have set : member (latchEvent n.val lined).events.latches n.val = true := by
    rw [member, latchEvent_latch _ _ (by omega)]
    simp
  obtain ⟨still, holds⟩ := allStop_stops n (latchEvent n.val lined)
  have carried := stilled_carried n (latchEvent n.val lined)
  have grounded := allStop_grounded n (latchEvent n.val lined)
  have events := stilled_events n (latchEvent n.val lined)
  obtain ⟨discarded, gone⟩ := stopSlots_discarded (p := stilled n (latchEvent n.val lined)) fun k =>
    (stilled_holds n (latchEvent n.val lined) k).2
  have agrees := recompute_agrees (allSlots.foldl discardPending (idled (stilled n (latchEvent n.val lined))))
  rw [← stopSlots_eq] at agrees
  rw [← allStop_eq] at discarded gone agrees
  rw [carried.slots, noted.slots, show lined.slots = s.part.slots from rfl] at discarded
  have there : (latchEvent n.val lined).out.guard = s.part.out.guard := by rw [noted.frame]; rfl
  have brakes : stopBrake (latchEvent n.val lined) = brake := by rw [noted.frame]; rfl
  have drop : (latchEvent n.val lined).counts.brakeDrop = s.part.counts.brakeDrop := by
    rw [show (latchEvent n.val lined).counts = _ from counts]
    rfl
  have dropped : (allStop n (latchEvent n.val lined)).counts.brakeDrop = (stilled n (latchEvent n.val lined)).counts.brakeDrop := by
    rw [show (allStop n (latchEvent n.val lined)).counts = _ from discarded.counts]
  refine ⟨_, takes, rfl, ?_⟩
  rw [withPart_part, stops]
  refine ⟨still, holds, fun room => ?_, fun full => ?_, ⟨?_, ?_, ?_, ?_⟩, gone, fun b => ?_, fun k => ?_, ?_, ?_,
    noted.carried.grounded.trans grounded |>.sameGround, ?_, ?_, ?_⟩
  · rw [discarded.guard, stilled_room (there ▸ room), there, brakes]
  · obtain ⟨guard, lost⟩ := stilled_full (n := n) (p := latchEvent n.val lined) (there ▸ full)
    exact ⟨by rw [discarded.guard, guard, there], by rw [dropped, lost, drop]⟩
  · rw [discarded.latch, events, (latched 24 (by decide)).1]
  · rw [discarded.again, events, (latched 24 (by decide)).1, (latched 24 (by decide)).2]
  · rw [discarded.latches 23 (by decide), events, (latched 23 (by decide)).1]
  · rw [discarded.repeats 23 (by decide), events, (latched 23 (by decide)).2]
  · exact (agrees.1 b).trans (claims_idle still.1 _)
  · exact (agrees.2 k).trans (claims_idle still.1 _)
  · have asserted : allStopAsserted (allStop n (latchEvent n.val lined)) = true := by
      refine (allStopAsserted_iff _).mpr ⟨n, ?_⟩
      rw [grounded.guard, noted.guard, setLine_own, GuardLine.stops, GuardLine.asserted, beq_self_eq_true, Bool.true_and, cls]
      rfl
    rw [stopActive, asserted, Bool.or_true, Bool.true_or]
  · rw [member, discarded.latches n.val (by omega), events]
    exact set
  · rw [grounded.cal, noted.cal]
    rfl
  · rw [grounded.filter, noted.filter]
    rfl
  · rw [grounded.guard, noted.guard]

end Sys2Proof.Machine
end

section
/-! The assertion of a ZONE-FREEZE line (R81, R95, R96, R104). -/

namespace Sys2Proof.Machine

/-- The record of figure `k` as its words stand. -/
def zoneRecord (words : List (Nat × StoredWord)) (k : FigIx) : FigureRecord :=
  figureRecord fun i => (wordAt words (256 + 8 * k.val + i)).data

/-- R81: a good read of the record `rec` of a fitted figure sets its brake address. -/
def LiveFigure.addressed (rec : FigureRecord) (g : LiveFigure) : LiveFigure :=
  { g with brake := some (BitVec.ofNat 8 rec.node, BitVec.ofNat 8 rec.channel) }

theorem setFigure_fixed {k : FigIx} {f : LiveFigure → LiveFigure} {p : Part} (h : f (p.figures.read k) = p.figures.read k) :
    setFigure k f p = p := by
  simp only [setFigure, Bank.update_of_fixed h]

/-- R81: with no table word disturbed, word 0 gives node, channel and zone, and leaves no trace. -/
theorem readFigure_zone {k : FigIx} {p : Part} (clean : p.table.clean) : ∃ rec,
    readFigure k figureZoneWords p = (some rec, setFigure k (·.braked rec) p) ∧
      rec.node = (zoneRecord p.table.words k).node ∧ rec.channel = (zoneRecord p.table.words k).channel ∧
      rec.zone = (zoneRecord p.table.words k).zone := by
  have inside : ∀ i ∈ figureZoneWords, figureBase k + i ≤ lastTableWord := by
    intro i hi
    rw [List.mem_singleton.mp hi]
    have := k.isLt
    simp only [figureBase, lastTableWord]
    omega
  refine ⟨figureRecord (recordWords p (figureBase k) figureZoneWords), ?_, rfl, rfl, rfl⟩
  rw [readFigure, readRecord_clean _ _ _ _ clean inside]
  rfl

/-! ## One figure met by the line (R96, R104) -/

section
variable {n : LineIx} {zones : BitVec 8} {k : FigIx} {p : Part}

theorem freezeInZones_bare (clean : p.table.clean) (bare : (zoneRecord p.table.words k).node = 0) :
    freezeInZones n zones k p = p := by
  obtain ⟨rec, read, node, -, -⟩ := readFigure_zone (k := k) clean
  rw [freezeInZones, read]
  dsimp only
  rw [node, bare]
  rw [setFigure_fixed (k := k) (f := (·.braked rec)) (if_pos (node.trans bare))]
  rfl

theorem freezeInZones_fitted (clean : p.table.clean) (fitted : (zoneRecord p.table.words k).node ≠ 0) :
    freezeInZones n zones k p =
      if zones.getLsbD (zoneRecord p.table.words k).zone = true
      then addHold k n false (setFigure k (·.addressed (zoneRecord p.table.words k)) p)
      else setFigure k (·.addressed (zoneRecord p.table.words k)) p := by
  obtain ⟨rec, read, node, channel, zone⟩ := readFigure_zone (k := k) clean
  have braked : setFigure k (·.braked rec) p = setFigure k (·.addressed (zoneRecord p.table.words k)) p := by
    refine setFigure_congr ?_
    rw [LiveFigure.braked, if_neg (by rw [node]; exact fitted), node, channel]
    rfl
  rw [freezeInZones, read]
  dsimp only
  rw [braked, node, zone, decide_eq_true fitted, Bool.true_and]
  rfl

end

/-- R96: a figure that moves is braked at its brake address, and its POSE frames leave OQ-MOTION. -/
theorem addHold_moving {k : FigIx} {n : LineIx} {p : Part} {d c : Byte} (moving : (p.figures.read k).moving = true)
    (brake : (p.figures.read k).brake = some (d, c)) : ∃ figures : Bank LiveFigure 16,
      addHold k n false p = { appendBrake d c (removePoses k p) with figures := figures } := by
  have braked : brakeFigure k (removePoses k (setFigure k (fun g => { g with hold := setMember g.hold n.val }) p)) =
      appendBrake d c (removePoses k (setFigure k (fun g => { g with hold := setMember g.hold n.val }) p)) := by
    have same : ((removePoses k (setFigure k (fun g => { g with hold := setMember g.hold n.val }) p)).figures.read k).brake =
        some (d, c) := by
      rw [show (removePoses k (setFigure k (fun g => { g with hold := setMember g.hold n.val }) p)).figures.read k = _ from
        setFigure_own k _ p]
      exact brake
    rw [brakeFigure, same]
  have shape : ∃ figures : Bank LiveFigure 16,
      appendBrake d c (removePoses k (setFigure k (fun g => { g with hold := setMember g.hold n.val }) p)) =
        { appendBrake d c (removePoses k p) with figures := figures } := by
    refine ⟨(setFigure k (fun g => { g with hold := setMember g.hold n.val }) p).figures, ?_⟩
    by_cases room : p.out.guard.length < 16
    · rw [appendBrake_room (by exact room), appendBrake_room (by exact room)]
      rfl
    · rw [appendBrake_full (by exact room), appendBrake_full (by exact room)]
      rfl
  obtain ⟨figures, eq⟩ := shape
  rw [addHold]
  rcases (LiveFigure.moving_iff _).mp moving with state | state
  all_goals
    rw [state]
    dsimp only
    rw [if_neg Bool.false_ne_true, braked, eq]
    exact ⟨_, rfl⟩

theorem addHold_standing {k : FigIx} {n : LineIx} {p : Part} (still : (p.figures.read k).moving = false) :
    ∃ figures : Bank LiveFigure 16, addHold k n false p = { p with figures := figures } := by
  rw [addHold]
  cases state : (p.figures.read k).state with
  | driven => rw [(LiveFigure.moving_iff _).mpr (.inl state)] at still; cases still
  | homing => rw [(LiveFigure.moving_iff _).mpr (.inr state)] at still; cases still
  | idle => exact ⟨_, rfl⟩
  | frozen => exact ⟨_, rfl⟩
  | faulted => exact ⟨_, rfl⟩

theorem LiveFigure.held_standing {g : LiveFigure} {n : LineIx} (h : g.state = .frozen ∨ g.state = .faulted) :
    g.held n = { g with hold := setMember g.hold n.val } := by
  rw [held]
  rcases h with e | e <;> rw [e]

theorem LiveFigure.held_free {g : LiveFigure} {n : LineIx} (notFrozen : g.state ≠ .frozen) (notFaulted : g.state ≠ .faulted) :
    g.held n = { g with hold := setMember g.hold n.val, state := .frozen, lag := false, stall := none } := by
  rw [held]
  cases e : g.state with
  | idle => rfl
  | driven => rfl
  | homing => rfl
  | frozen => exact absurd e notFrozen
  | faulted => exact absurd e notFaulted

/-! ## All the figures met (R104) -/

/-- R104: the figure is fitted, its zone is among the line's, and it moves: the line freezes it out of its motion. -/
def frozenOut (zones : BitVec 8) (p : Part) (k : FigIx) : Bool :=
  decide (((zoneRecord p.table.words k).node ≠ 0 ∧ zones.getLsbD (zoneRecord p.table.words k).zone = true) ∧
    ((p.figures.read k).state = .driven ∨ (p.figures.read k).state = .homing))

/-- R95: the BRAKE frame for the figure `x.1`, whose free byte is the one numbered `drawn + x.2`. -/
def zoneBrake (words : List (Nat × StoredWord)) (address : Byte) (drawn : Nat) (x : FigIx × Nat) : Frame :=
  { dest := BitVec.ofNat 8 (zoneRecord words x.1).node, source := address, kind := Kind.brake
    tag := Config.freeByte (drawn + x.2), payload := [BitVec.ofNat 8 (zoneRecord words x.1).channel] }

section
variable {n : LineIx} {zones : BitVec 8} {k : FigIx} {p : Part}

theorem freezeInZones_passed (clean : p.table.clean) (h : frozenOut zones p k = false) :
    ∃ figures : Bank LiveFigure 16, freezeInZones n zones k p = { p with figures := figures } := by
  by_cases bare : (zoneRecord p.table.words k).node = 0
  · exact ⟨p.figures, freezeInZones_bare clean bare⟩
  · rw [freezeInZones_fitted clean bare]
    by_cases zone : zones.getLsbD (zoneRecord p.table.words k).zone = true
    · rw [if_pos zone]
      have still : ((setFigure k (·.addressed (zoneRecord p.table.words k)) p).figures.read k).moving = false := by
        rw [setFigure_own]
        refine Bool.eq_false_iff.mpr fun moves => of_decide_eq_false h ⟨⟨bare, zone⟩, (LiveFigure.moving_iff _).mp moves⟩
      obtain ⟨figures, eq⟩ := addHold_standing (n := n) still
      exact ⟨figures, by rw [eq]; rfl⟩
    · rw [if_neg zone]
      exact ⟨_, rfl⟩

theorem freezeInZones_frozenOut (clean : p.table.clean) (h : frozenOut zones p k = true) :
    ∃ figures : Bank LiveFigure 16, freezeInZones n zones k p =
      { appendBrake (BitVec.ofNat 8 (zoneRecord p.table.words k).node) (BitVec.ofNat 8 (zoneRecord p.table.words k).channel)
        (removePoses k p) with figures := figures } := by
  obtain ⟨⟨fitted, zone⟩, moves⟩ := of_decide_eq_true h
  rw [freezeInZones_fitted clean fitted, if_pos zone]
  have own := setFigure_own k (·.addressed (zoneRecord p.table.words k)) p
  obtain ⟨figures, eq⟩ := addHold_moving (k := k) (n := n) (p := setFigure k (·.addressed (zoneRecord p.table.words k)) p)
    (d := BitVec.ofNat 8 (zoneRecord p.table.words k).node) (c := BitVec.ofNat 8 (zoneRecord p.table.words k).channel)
    (by rw [own]; exact (LiveFigure.moving_iff _).mpr moves) (by rw [own]; rfl)
  refine ⟨figures, eq.trans ?_⟩
  by_cases room : p.out.guard.length < 16
  · rw [appendBrake_room (by exact room), appendBrake_room (by exact room)]
    rfl
  · rw [appendBrake_full (by exact room), appendBrake_full (by exact room)]
    rfl

end

/-- R104: what the figures of `ks`, met in order, leave of the queues: of `m`, those frozen out of their motion, the POSE
frames leave OQ-MOTION, and their BRAKE frames are appended while OQ-GUARD has room. -/
structure FrozenOut (zones : BitVec 8) (p q : Part) (m : List FigIx) : Prop where
  table : q.table = p.table
  motion : q.out.motion = p.out.motion.filter fun x => x.figure ∉ m
  guard : ∀ drawn start, p.freeUsed = drawn + start → q.out.guard = p.out.guard ++
    ((m.take (16 - p.out.guard.length)).zipIdx start).map (zoneBrake p.table.words p.settings.ownAddress drawn)

theorem foldl_freezeInZones {n : LineIx} {zones : BitVec 8} {ks : List FigIx} (once : ks.Nodup) {p : Part}
    (clean : p.table.clean) :
    FrozenOut zones p (ks.foldl (fun x k => freezeInZones n zones k x) p) (ks.filter (frozenOut zones p)) := by
  induction ks generalizing p with
  | nil => exact ⟨rfl, by simp, fun _ _ _ => by simp⟩
  | cons k rest ih =>
    obtain ⟨fresh, once⟩ := List.nodup_cons.mp once
    have posed := freezeInZones_posed n zones k p
    have later : (freezeInZones n zones k p).table = p.table → rest.filter (frozenOut zones (freezeInZones n zones k p)) =
        rest.filter (frozenOut zones p) := by
      intro table
      refine List.filter_congr fun j hj => ?_
      rw [frozenOut, frozenOut, table, posed.others j fun e => fresh (e ▸ hj)]
    rw [List.foldl_cons]
    cases out : frozenOut zones p k with
    | false =>
      obtain ⟨figures, eq⟩ := freezeInZones_passed (n := n) clean out
      have table : (freezeInZones n zones k p).table = p.table := by rw [eq]
      have rests := ih once (p := freezeInZones n zones k p) (by rw [table]; exact clean)
      rw [later table] at rests
      rw [List.filter_cons_of_neg (by rw [out]; exact Bool.false_ne_true)]
      exact {
        table := rests.table.trans table
        motion := by rw [rests.motion, eq]
        guard := fun drawn start drawnFrom => by
          rw [rests.guard drawn start (by rw [eq]; exact drawnFrom), eq] }
    | true =>
      obtain ⟨figures, eq⟩ := freezeInZones_frozenOut (n := n) clean out
      have table : (freezeInZones n zones k p).table = p.table := by
        rw [eq, appendBrake]
        split <;> rfl
      have motion : (freezeInZones n zones k p).out.motion = p.out.motion.filter fun x => x.figure ≠ k := by
        rw [eq, appendBrake]
        split <;> rfl
      have rests := ih once (p := freezeInZones n zones k p) (by rw [table]; exact clean)
      rw [later table] at rests
      rw [List.filter_cons_of_pos out]
      refine ⟨rests.table.trans table, ?_, fun drawn start drawnFrom => ?_⟩
      · rw [rests.motion, motion, List.filter_filter]
        refine List.filter_congr fun x _ => ?_
        rw [← Bool.decide_and]
        exact decide_eq_decide.mpr (by rw [List.mem_cons, not_or, and_comm])
      · by_cases room : p.out.guard.length < 16
        · have braked : (freezeInZones n zones k p).out.guard = p.out.guard ++ [zoneBrake p.table.words p.settings.ownAddress drawn (k, start)] := by
            rw [eq, appendBrake_room (by exact room), zoneBrake, ← drawnFrom]
            rfl
          have drew : (freezeInZones n zones k p).freeUsed = drawn + (start + 1) := by
            rw [eq, appendBrake_room (by exact room), ← Nat.add_assoc, ← drawnFrom]
            rfl
          obtain ⟨left, hleft⟩ : ∃ left, 16 - p.out.guard.length = left + 1 := ⟨15 - p.out.guard.length, by omega⟩
          rw [rests.guard drawn (start + 1) drew, braked, table, posed.settings, hleft, List.take_succ_cons, List.zipIdx_cons,
            List.map_cons, List.append_assoc, List.singleton_append, List.length_append, List.length_singleton,
            show 16 - (p.out.guard.length + 1) = left by omega]
        · have braked : (freezeInZones n zones k p).out.guard = p.out.guard := by
            rw [eq, appendBrake_full (by exact room)]
            rfl
          have drew : (freezeInZones n zones k p).freeUsed = drawn + start := by
            rw [eq, appendBrake_full (by exact room), ← drawnFrom]
            rfl
          rw [rests.guard drawn start drew, braked, show 16 - p.out.guard.length = 0 by omega]
          simp

/-- Settles O40. -/
theorem zoneFreezeHoldsItsZones : Obligations.ZoneFreezeHoldsItsZones := by
  intro s n running clean l r g reached moving run free cls
  have takes : exec (.guardAssertion n) s = .next (s.withPart (takeAssertion n s.part)) := run_running _ s running
  let lined := setLine n (fun x => { x with taken := x.config.activeHigh, run := 0, changed := true, settle := none }) s.part
  have noted : Noted lined (latchEvent n.val lined) := latchEvent_noted n.val lined
  have own : (lined.guard.lines.read n).config = l.config := by rw [setLine_own]
  have table : (latchEvent n.val lined).table = s.part.table := latchEvent_table n.val lined
  have freezes : takeAssertion n s.part =
      allFigures.foldl (fun x k => freezeInZones n l.config.zones k x) (latchEvent n.val lined) := by
    rw [takeAssertion_eq run free, classEffect, noted.guard, own, cls]
  have carried : Carried lined (latchEvent n.val lined) := noted.carried
  have figures : (latchEvent n.val lined).figures = s.part.figures := noted.figures
  have out : (latchEvent n.val lined).out = { s.part.out with report := (latchEvent n.val lined).out.report } :=
    (noted.rested fun _ => True).out
  have strikes : (latchEvent n.val lined).strikes = s.part.strikes := noted.strikes
  have drawn : (latchEvent n.val lined).freeUsed = s.part.freeUsed := by rw [noted.frame]; rfl
  generalize latchEvent n.val lined = q at *
  have all := foldl_freezeInZones (n := n) (zones := l.config.zones) allFigures_once (p := q) (by rw [table]; exact clean)
  have posed := foldl_posed (S := fun _ => True) (fun x k => freezeInZones n l.config.zones k x) allFigures q fun x k =>
    (freezeInZones_posed n l.config.zones k x).mono fun _ _ => trivial
  have met : allFigures.filter (frozenOut l.config.zones q) = moving := by
    refine List.filter_congr fun k _ => ?_
    rw [frozenOut, table, figures]
    rfl
  rw [met] at all
  refine ⟨_, takes, rfl, ?_⟩
  rw [withPart_part, freezes]
  refine ⟨(carried.trans posed.toCarried).grounded.sameGround, ?_, ?_, ?_, ?_, all.table.trans table, ?_, ?_, ?_, ?_, ?_, fun k => ?_⟩
  · rw [posed.slots, carried.slots]
    rfl
  · rw [posed.bellOwner, carried.bellOwner]
    rfl
  · rw [posed.figOwner, carried.figOwner]
    rfl
  · rw [posed.strikes, strikes]
  · rw [posed.cal, carried.cal]
    rfl
  · rw [posed.filter, carried.filter]
    rfl
  · rw [posed.out, out]
  · rw [all.motion, out]
  · rw [all.guard s.part.freeUsed 0 drawn, out, table, carried.settings]
    rfl
  · intro braked
    obtain ⟨x, before, after⟩ := foldl_own (fun x k => freezeInZones_posed n l.config.zones k x) allFigures_once (mem_allFigures k) q
    have words : x.table.words = s.part.table.words := before.words.trans (congrArg Table.words table)
    have still : x.table.clean := by rw [Table.clean, words]; exact clean
    have record : zoneRecord x.table.words k = r k := by rw [words]; rfl
    have mine : x.figures.read k = g k := (before.others k fun h => h rfl).trans (by rw [figures])
    rw [after.others k fun h => h rfl]
    refine ⟨fun bare => ?_, fun fitted beyond => ?_, fun fits stands => ?_, fun fits moved held => ?_⟩
    · rw [freezeInZones_bare still (record ▸ bare), mine]
    · rw [freezeInZones_fitted still (record ▸ fitted), record, beyond, if_neg Bool.false_ne_true, setFigure_own, mine]
      rfl
    · rw [freezeInZones_fitted still (record ▸ fits.1), record, if_pos fits.2, addHold_own, setFigure_own, mine,
        LiveFigure.held_standing (by exact stands)]
      rfl
    · rw [freezeInZones_fitted still (record ▸ fits.1), record, if_pos fits.2, addHold_own, setFigure_own, mine,
        LiveFigure.held_free (by exact moved) (by exact held)]
      rfl

end Sys2Proof.Machine
end

section
/-! Latched causes, ATTENTION frames and the two pins (R105, R108 to R111, R114). -/

namespace Sys2Proof.Machine

/-! ## The pins (R105, R110, R111, R114) -/

/-- R110: a set of sources that is not empty has a member. -/
theorem sources_ne_zero (x : BitVec 32) : x ≠ 0 ↔ ∃ j : Fin 32, x.getLsbD j.val = true := by
  constructor
  · intro some
    by_contra none
    refine some (BitVec.eq_of_getLsbD_eq fun j hj => ?_)
    rw [Bool.eq_false_iff.mpr fun set => none ⟨⟨j, hj⟩, set⟩]
    simp
  · rintro ⟨j, set⟩ rfl
    simp at set

theorem PinState.driven_iff (pin : PinState) (e : EventUnit) (route : BitVec 32) : pin.driven e route = true ↔
    pin.mode = .level ∧ (∃ j : Fin 32, e.latches.getLsbD j.val = true ∧ e.enables.getLsbD j.val = true ∧
      route.getLsbD j.val = true) ∨ pin.mode = .pulse ∧ pin.pulseEnd ≠ none := by
  rw [driven]
  cases pin.mode with
  | level =>
    dsimp only
    rw [decide_eq_true_eq, sources_ne_zero]
    simp only [BitVec.getLsbD_and, Bool.and_eq_true, and_assoc]
    simp
  | pulse => simp [Option.isSome_iff_ne_none]

theorem stops_iff (l : GuardLine) : l.stops = true ↔ l.config.cls = .allStop ∧ l.taken = l.config.activeHigh := by
  rw [GuardLine.stops, GuardLine.asserted, Bool.and_eq_true, beq_iff_eq, beq_iff_eq, and_comm]

theorem stopActive_iff (p : Part) : stopActive p = true ↔ p.phase ≠ .running ∨
    p.events.stop.driven p.events p.events.routeStop = true ∨
    ∃ n, (p.guard.lines.read n).config.cls = .allStop ∧ (p.guard.lines.read n).taken = (p.guard.lines.read n).config.activeHigh := by
  rw [stopActive, Bool.or_eq_true, Bool.or_eq_true, decide_eq_true_eq, allStopAsserted_iff, or_assoc, or_comm (b := _ = true)]
  simp only [stops_iff]

theorem beaconActive_iff (p : Part) : beaconActive p = true ↔ p.phase = .running ∧
    p.events.beacon.driven p.events p.events.routeBeacon = true := by
  rw [beaconActive, Bool.and_eq_true, decide_eq_true_eq]

/-! ## A cause, form by form (R108, R109) -/

section
variable {k : Nat} {p : Part}

/-- R108: the part with the latch of source `k` set. -/
def latchSet (k : Nat) (p : Part) : Part := { p with events := { p.events with latches := setMember p.events.latches k } }

/-- R109: a source that an ATTENTION frame reports. -/
def reports (k : Nat) (p : Part) : Bool := member p.events.enables k && member p.events.routeFrame k

theorem latchEvent_again (h : member p.events.latches k = true) : latchEvent k p =
    causePins k { p with events := { p.events with repeats := setMember p.events.repeats k } } := if_pos h

theorem latchEvent_first (h : member p.events.latches k = false) : latchEvent k p =
    causePins k (if reports k p then raiseAttention (latchSet k p) else latchSet k p) := if_neg (Bool.eq_false_iff.mp h)

/-- R108, R109: a cause changes no block but the event unit, OQ-REPORT and the count of lost frames. -/
theorem latchEvent_frame (k : Nat) (p : Part) : latchEvent k p = { p with
    out := (latchEvent k p).out, counts := { p.counts with replyDrop := (latchEvent k p).counts.replyDrop }
    events := (latchEvent k p).events } := by
  cases again : member p.events.latches k with
  | true => rw [latchEvent_again again]; rfl
  | false =>
    rw [latchEvent_first again]
    cases reports k p with
    | false => rfl
    | true =>
      rw [if_pos rfl, raiseAttention, appendReport]
      dsimp only
      split <;> rfl

theorem latchEvent_unreported (h : member p.events.latches k = true ∨ reports k p = false) :
    (latchEvent k p).out = p.out ∧ (latchEvent k p).events.sequence = p.events.sequence ∧ (latchEvent k p).counts = p.counts := by
  cases again : member p.events.latches k with
  | true => rw [latchEvent_again again]; exact ⟨rfl, rfl, rfl⟩
  | false =>
    have unreported := h.resolve_left (Bool.eq_false_iff.mp again)
    rw [latchEvent_first again, unreported]
    exact ⟨rfl, rfl, rfl⟩

/-- R109: the first cause of a reported source raises its ATTENTION frame. -/
theorem latchEvent_reported (first : member p.events.latches k = false) (reported : reports k p = true) :
    (latchEvent k p).events.sequence = p.events.sequence + 1 ∧
      (latchEvent k p).out = (appendReport (attentionFrame (latchSet k p)) (latchSet k p)).out ∧
      (latchEvent k p).counts = (appendReport (attentionFrame (latchSet k p)) (latchSet k p)).counts := by
  rw [latchEvent_first first, reported, if_pos rfl]
  refine ⟨?_, rfl, rfl⟩
  rw [show (causePins k (raiseAttention (latchSet k p))).events.sequence = (raiseAttention (latchSet k p)).events.sequence from rfl,
    raiseAttention_events]
  rfl

theorem appendReport_room {f : Frame} (room : p.out.report.length < 16) :
    appendReport f p = { p with out := { p.out with report := p.out.report ++ [f] } } := if_pos room

theorem appendReport_full {f : Frame} (full : 16 ≤ p.out.report.length) :
    appendReport f p = { p with counts := { p.counts with replyDrop := bump p.counts.replyDrop } } := if_neg (not_lt.mpr full)

/-- R111: what a cause does to the pins. -/
theorem latchEvent_pins (k : Nat) (p : Part) :
    (latchEvent k p).events.stop = p.events.stop.caused (member p.events.enables k && member p.events.routeStop k) p.lineTime ∧
      (latchEvent k p).events.beacon =
        p.events.beacon.caused (member p.events.enables k && member p.events.routeBeacon k) p.lineTime := by
  cases again : member p.events.latches k with
  | true => rw [latchEvent_again again]; exact ⟨rfl, rfl⟩
  | false =>
    rw [latchEvent_first again]
    cases reports k p with
    | false => exact ⟨rfl, rfl⟩
    | true =>
      rw [if_pos rfl, raiseAttention, appendReport]
      dsimp only
      split <;> exact ⟨rfl, rfl⟩

theorem PinState.caused_pulse {pin : PinState} {now : Nat} (h : pin.mode = .pulse) :
    (pin.caused true now).pulseEnd = some (now + 50) := by
  rw [caused, h]
  rfl

end

/-! ## The end of a pulse (R111) -/

theorem PinState.ended_eq {x : PinState} {e now : Nat} (h : x.pulseEnd = some e) :
    x.ended now = { x with pulseEnd := if e ≤ now then none else some e } := by
  have due : x.endDue now = decide (e ≤ now) := by rw [endDue, h]
  rw [ended, due]
  by_cases reached : e ≤ now
  · rw [decide_eq_true reached, if_pos rfl, if_pos reached]
  · rw [decide_eq_false reached, if_neg Bool.false_ne_true, if_neg reached, ← h]

/-- Settles O41. -/
theorem causesAreLatchedAndPulsesEnd : Obligations.CausesAreLatchedAndPulsesEnd := by
  constructor
  · intro p driven
    exact ⟨(stopActive_iff p).trans (or_congr_right (or_congr_left (PinState.driven_iff _ _ _))),
      (beaconActive_iff p).trans (and_congr_right fun _ => PinState.driven_iff _ _ _)⟩
  intro k p q
  have enabled : ∀ {a b : Bool}, a = true → b = true → (a && b) = true := by
    rintro _ _ rfl rfl
    rfl
  have stop := (latchEvent_pins k.val p).1
  have beacon := (latchEvent_pins k.val p).2
  refine ⟨fun j => ?_, fun j => ?_, ?_, fun quiet => ?_, latchEvent_frame k.val p, fun on routed pulse => ?_,
    fun on routed pulse => ?_, fun s e running => ⟨fun ends => ?_, fun ends => ?_⟩⟩
  · rw [latchEvent_latch _ _ k.isLt]
    exact congrArg _ (Bool.eq_iff_iff.mpr (by simp [Fin.ext_iff]))
  · rw [latchEvent_repeat _ _ k.isLt]
    exact congrArg (fun x => p.events.repeats.getLsbD j.val || (x && p.events.latches.getLsbD j.val))
      (Bool.eq_iff_iff.mpr (by simp [Fin.ext_iff]))
  · intro first on routed listed f
    obtain ⟨sequence, out, counts⟩ := latchEvent_reported first (enabled on routed)
    have frame : attentionFrame (latchSet k.val p) = f := by
      have latches : q.events.latches = setMember p.events.latches k.val := latchEvent_latches k.val p
      have repeats : q.events.repeats = p.events.repeats := by
        rw [latchEvent_repeats, member, if_neg (Bool.eq_false_iff.mp first)]
      simp only [f, listed, latches, repeats]
      rfl
    rw [frame] at out counts
    refine ⟨sequence, fun room => ?_, fun full => ?_⟩
    · rw [appendReport_room (by exact room)] at out counts
      exact ⟨out, counts⟩
    · rw [appendReport_full (by exact full)] at out counts
      exact ⟨out, counts⟩
  · refine latchEvent_unreported (quiet.imp_right fun off => ?_)
    rw [reports, Bool.and_eq_false_iff]
    exact off
  · rw [beacon, show (member p.events.enables k.val && member p.events.routeBeacon k.val) = true from enabled on routed,
      PinState.caused_pulse pulse]
  · rw [stop, show (member p.events.enables k.val && member p.events.routeStop k.val) = true from enabled on routed,
      PinState.caused_pulse pulse]
  · rw [show exec (.pulseEnd .stop) s = .next (s.withPart (endPulse .stop s.part)) from run_running _ s running, endPulse,
      PinState.ended_eq ends]
  · rw [show exec (.pulseEnd .beacon) s = .next (s.withPart (endPulse .beacon s.part)) from run_running _ s running, endPulse,
      PinState.ended_eq ends]

end Sys2Proof.Machine
end

section
/-! The end of an LBR and of a SOFT RESET (R3, R13, R102, R114, R125, R126, R159, R169). -/

namespace Sys2Proof.Machine

/-! ## The part as the reset ends (R114, R125) -/

/-- R114: the ATTENTION frame of source 31, with which OQ-REPORT begins. -/
def resetAttention : Frame := Frame.mk 0 120 Kind.attention 0 [0x80, 0, 0, 0, 0, 0, 0, 0]

/-- R125: the part with its blocks reset and source 31 latched. -/
def restarted (p : Part) : Part := latchEvent Source.resetOccurred (resetBlocks p)

theorem restarted_noted (p : Part) : Noted (resetBlocks p) (restarted p) := latchEvent_noted _ _

theorem attentionFrame_resetBlocks (p : Part) : attentionFrame (latchSet Source.resetOccurred (resetBlocks p)) =
    attentionFrame (latchSet Source.resetOccurred Part.initial) := rfl

theorem attentionFrame_reset : attentionFrame (latchSet Source.resetOccurred Part.initial) = resetAttention := by decide

theorem restarted_report (p : Part) : (restarted p).out.report = [resetAttention] := by
  have reported := (latchEvent_reported (k := Source.resetOccurred) (p := resetBlocks p)
    (show member EventUnit.initial.latches 31 = false by decide)
    (show (member EventUnit.initial.enables 31 && member EventUnit.initial.routeFrame 31) = true by decide)).2.1
  rw [restarted, reported, appendReport_room (show (latchSet Source.resetOccurred (resetBlocks p)).out.report.length < 16 by exact (by decide : 0 < 16))]
  exact congrArg (fun f => [f]) ((attentionFrame_resetBlocks p).trans attentionFrame_reset)

theorem restFigure_told (k : FigIx) (p : Part) : Told p (restFigure k p) := by
  unfold restFigure
  dsimp only
  split
  · exact (readFigure_told _ _ p).trans (setFigure_told _ _ _)
  · exact readFigure_told _ _ p

theorem restFigures_told (p : Part) : Told p (restFigures p) := foldl_told _ _ p fun q k => restFigure_told k q

/-- R13: the stamp as the resumption check leaves it. -/
def resumedStamp (c : CalendarUnit) : Option DateTime :=
  if c.clockState = .set ∧ afterStamp c.stamp c.clock.floorMinute = true then some c.clock.floorMinute else c.stamp

theorem resume_eq (p : Part) : ∃ q, Grounded p q ∧ Told p q ∧ resume p = { q with cal := { p.cal with stamp := resumedStamp p.cal } } := by
  unfold resume
  split
  next set =>
    have grounded := catchUpSlots_grounded (skippedBoundaries p.cal.stamp p.cal.clock.millis p.settings.catchUp) p
    have told := foldl_told (catchUpSlot (skippedBoundaries p.cal.stamp p.cal.clock.millis p.settings.catchUp)) allSlots p
      (catchUpSlot_told _)
    rw [catchUp]
    generalize allSlots.foldl (catchUpSlot (skippedBoundaries p.cal.stamp p.cal.clock.millis p.settings.catchUp)) p = q at *
    have raised : raisedStamp p.cal.stamp p.cal.clock = resumedStamp p.cal := by
      simp only [raisedStamp, resumedStamp, set, true_and]
    refine ⟨q, grounded, told, ?_⟩
    rw [← raised, ← grounded.cal]
    rfl
  next unset =>
    have same : resumedStamp p.cal = p.cal.stamp := if_neg fun h => unset h.1
    exact ⟨p, Grounded.refl p, Told.refl p, by rw [same]⟩

theorem leaveReset_eq (p : Part) : ∃ q, Grounded (resetBlocks p) q ∧ Told (restarted p) q ∧
    leaveReset p = { q with cal := { p.cal.kept with stamp := resumedStamp p.cal } } := by
  have before := ((restarted_noted p).carried.trans (restFigures_carried _)).grounded
  obtain ⟨q, grounded, told, eq⟩ := resume_eq (restFigures (restarted p))
  refine ⟨q, before.trans grounded, (restFigures_told _).trans told, ?_⟩
  rw [show leaveReset p = resume (restFigures (restarted p)) from rfl, eq, before.cal]
  rfl

/-- R126: a SOFT RESET is not over while a transmitter is at work or before its hold. -/
theorem softResetOver_false {p : Part} (h : transmittersDone p = false ∨ p.resetHold = 0) : softResetOver p = false := by
  rw [softResetOver]
  rcases h with busy | early
  · rw [busy, Bool.and_false, Bool.false_and]
  · rw [early]
    exact Bool.and_false _

/-- Settles O6. -/
theorem leavingAResetKeepsTheTablesAndTheClock : Obligations.LeavingAResetKeepsTheTablesAndTheClock := by
  refine ⟨fun c s ends => ?_, fun s soft held => ?_, fun p soft held => ?_⟩
  · have leaves : exec c s = .next (s.withPart (leaveReset s.part)) := by
      rcases ends with ⟨rfl, broken⟩ | ⟨rfl, soft, done, hold⟩
      · exact congrArg (fun q => Host.Outcome.next (s.withPart q)) (if_pos broken)
      · refine congrArg (fun q => Host.Outcome.next (s.withPart q)) (if_pos ?_)
        rw [softResetOver, soft, done, decide_eq_true hold]
        rfl
    obtain ⟨q, grounded, told, eq⟩ := leaveReset_eq s.part
    have noted := (restarted_noted s.part).told
    refine ⟨_, leaves, rfl, ?_⟩
    rw [withPart_part, eq]
    refine ⟨grounded.phase, grounded.lineTime, grounded.words, rfl, rfl, rfl, rfl, rfl, grounded.filter, grounded.settings,
      grounded.up, grounded.down, told.levels.trans noted.levels, told.mode.trans noted.mode, told.mark.trans noted.mark,
      grounded.guard, grounded.verify, ?_⟩
    obtain ⟨later, report⟩ := told.report
    dsimp only
    rw [← report, restarted_report]
    rfl
  · exact congrArg (fun q => Host.Outcome.next (s.withPart q)) (if_neg (Bool.eq_false_iff.mp (softResetOver_false held)))
  · have none : dueCommands p = [] := by
      rw [dueCommands, soft]
      dsimp only
      rw [softResetOver_false held]
      rfl
    refine ⟨_, rfl, ?_⟩
    rw [idle]
    dsimp only
    rw [none]
    dsimp only
    rw [passMillisecond, soft]

end Sys2Proof.Machine
end

section
/-! What a guard line's effect leaves alone (R104, R105, R107). -/

namespace Sys2Proof.Machine

/-! ## The relation -/

/-- What the latch and the class effect of line `n` keep: beside the blocks of `Grounded`, every setpoint, and each figure's
being held by any other line. -/
structure Effected (n : LineIx) (p q : Part) : Prop extends Grounded p q, Told p q, Wired p q where
  setpoint : ∀ k, (q.figures.read k).setpoint = (p.figures.read k).setpoint
  hold : ∀ k m, m ≠ n → (q.figures.read k).hold.getLsbD m = (p.figures.read k).hold.getLsbD m

section
variable {n : LineIx} {p q r : Part}

theorem Effected.refl (n : LineIx) (p : Part) : Effected n p p :=
  ⟨Grounded.refl p, Told.refl p, Wired.refl p, fun _ => rfl, fun _ _ _ => rfl⟩

theorem Effected.trans (h : Effected n p q) (k : Effected n q r) : Effected n p r :=
  ⟨h.toGrounded.trans k.toGrounded, h.toTold.trans k.toTold, h.toWired.trans k.toWired,
    fun j => (k.setpoint j).trans (h.setpoint j), fun j m other => (k.hold j m other).trans (h.hold j m other)⟩

theorem foldl_effected {α : Type} (f : Part → α → Part) (as : List α) (p : Part) (h : ∀ q a, Effected n q (f q a)) :
    Effected n p (as.foldl f p) := by
  induction as generalizing p with
  | nil => exact Effected.refl n p
  | cons a rest ih => exact (h p a).trans (ih (f p a))

/-- An operation that touches no figure. -/
theorem effected_of_figures (grounded : Grounded p q) (told : Told p q) (wired : Wired p q) (figures : q.figures = p.figures) :
    Effected n p q :=
  ⟨grounded, told, wired, fun k => by rw [figures], fun k m _ => by rw [figures]⟩

/-- An operation on figure `k` that keeps its setpoint and its other holds. -/
theorem effected_of_posed {k : FigIx} (posed : Posed (· = k) p q) (told : Told p q) (wired : Wired p q)
    (setpoint : (q.figures.read k).setpoint = (p.figures.read k).setpoint)
    (hold : ∀ m, m ≠ n → (q.figures.read k).hold.getLsbD m = (p.figures.read k).hold.getLsbD m) : Effected n p q where
  toGrounded := posed.grounded
  toTold := told
  toWired := wired
  setpoint j := by
    by_cases own : j = k
    · rw [own, setpoint]
    · rw [posed.others j own]
  hold j m other := by
    by_cases own : j = k
    · rw [own, hold m other]
    · rw [posed.others j own]

end

/-! ## Causes and reads -/

theorem latchEvent_effected (n : LineIx) (k : Nat) (p : Part) : Effected n p (latchEvent k p) :=
  effected_of_figures (latchEvent_noted k p).grounded (latchEvent_noted k p).told (latchEvent_wired k p) (latchEvent_noted k p).figures

theorem readFigure_wired (k : FigIx) (o : List Nat) (p : Part) : Wired p (readFigure k o p).2 := by
  have read : Wired p (readRecord .record (figureBase k) o p).2 := readEach_wired _ _ p
  unfold readFigure
  dsimp only
  split
  · exact read.trans (wired_of_same rfl)
  · exact read

theorem readFigure_effected (n : LineIx) (k : FigIx) (o : List Nat) (p : Part) : Effected n p (readFigure k o p).2 := by
  obtain ⟨b, own⟩ := readFigure_brake k k o p
  exact effected_of_posed (readFigure_rested k o p).posed (readFigure_told k o p) (readFigure_wired k o p) (by rw [own])
    fun m _ => by rw [own]

/-! ## Holds (R96) -/

theorem appendBrake_told (d c : Byte) (p : Part) : Told p (appendBrake d c p) ∧ Wired p (appendBrake d c p) := by
  unfold appendBrake
  split <;> exact ⟨told_of_same rfl, wired_of_same rfl⟩

theorem brakeFigure_told (k : FigIx) (p : Part) : Told p (brakeFigure k p) ∧ Wired p (brakeFigure k p) := by
  rw [brakeFigure_eq]
  exact appendBrake_told _ _ p

theorem addHold_told (k : FigIx) (n : LineIx) (a : Bool) (p : Part) : Told p (addHold k n a p) ∧ Wired p (addHold k n a p) := by
  have stopped : ∀ q : Part, Told p q ∧ Wired p q →
      Told p (if a then removePoses k q else brakeFigure k (removePoses k q)) ∧
        Wired p (if a then removePoses k q else brakeFigure k (removePoses k q)) := by
    intro q h
    have removed : Told q (removePoses k q) ∧ Wired q (removePoses k q) := ⟨told_of_same rfl, wired_of_same rfl⟩
    split
    · exact ⟨h.1.trans removed.1, h.2.trans removed.2⟩
    · have braked := brakeFigure_told k (removePoses k q)
      exact ⟨(h.1.trans removed.1).trans braked.1, (h.2.trans removed.2).trans braked.2⟩
  have set : ∀ (f : LiveFigure → LiveFigure) (q : Part), Told p q ∧ Wired p q →
      Told p (setFigure k f q) ∧ Wired p (setFigure k f q) := fun f q h =>
    ⟨h.1.trans (told_of_same rfl), h.2.trans (wired_of_same rfl)⟩
  have held := set (fun g => { g with hold := setMember g.hold n.val }) p ⟨Told.refl p, Wired.refl p⟩
  unfold addHold
  dsimp only
  split
  · exact set _ _ (stopped _ held)
  · exact set _ _ (stopped _ held)
  · exact set _ _ held
  · exact held
  · exact held

theorem LiveFigure.held_setpoint (g : LiveFigure) (n : LineIx) : (g.held n).setpoint = g.setpoint := by
  unfold held
  split <;> rfl

theorem LiveFigure.held_hold (g : LiveFigure) (n : LineIx) : (g.held n).hold = setMember g.hold n.val := by
  unfold held
  split <;> rfl

theorem setMember_other {w : Nat} (s : BitVec w) {n m : Nat} (other : m ≠ n) : (setMember s n).getLsbD m = s.getLsbD m := by
  rw [setMember, BitVec.getLsbD_or, BitVec.getLsbD_twoPow, decide_eq_false (Ne.symm other), Bool.and_false, Bool.or_false]

theorem addHold_effected (k : FigIx) (n : LineIx) (a : Bool) (p : Part) : Effected n p (addHold k n a p) := by
  have own := addHold_own k n a p
  obtain ⟨told, wired⟩ := addHold_told k n a p
  refine effected_of_posed (addHold_posed k n a p) told wired (by rw [own, LiveFigure.held_setpoint]) fun m other => ?_
  rw [own, LiveFigure.held_hold, setMember_other _ fun e => other (Fin.ext e)]

theorem freezeInZones_effected (n : LineIx) (zones : BitVec 8) (k : FigIx) (p : Part) :
    Effected n p (freezeInZones n zones k p) := by
  have read := readFigure_effected n k figureZoneWords p
  unfold freezeInZones
  dsimp only
  split
  · exact read.trans (addHold_effected _ _ _ _)
  · split
    · exact read.trans (addHold_effected _ _ _ _)
    · exact read

/-! ## ALL-STOP (R37, R105) -/

theorem stilled_effected (n : LineIx) (p : Part) : Effected n p (stilled n p) := by
  have held := foldl_effected (n := n) (fun x k => addHold k n true x) allFigures p fun q k => addHold_effected k n true q
  unfold stilled
  generalize allFigures.foldl (fun x k => addHold k n true x) p = q at held
  have braked := appendBrake_told 127 255 (setQueue [] (setOut (fun o => { o with strike := [], motion := [] }) q))
  have emptied : Effected n q (setQueue [] (setOut (fun o => { o with strike := [], motion := [] }) q)) :=
    effected_of_figures ((setOut_carried _ q).trans (setQueue_carried _ _)).grounded (told_of_same rfl) (wired_of_same rfl) rfl
  have sent := appendBrake_posed (fun _ => False) 127 255 (setQueue [] (setOut (fun o => { o with strike := [], motion := [] }) q))
  exact (held.trans emptied).trans (effected_of_figures sent.grounded braked.1 braked.2
    (Bank.ext_read _ _ fun k => sent.others k id))

theorem retargeted_standing {p : Part} {k : FigIx} {o : Option SlotIx} {g : LiveFigure} (h : g.standing) :
    retargeted p k o g = { g with owner := o, drive := governing p.slots k o } := by
  rcases h with e | e <;> cases o <;> simp only [retargeted, e]

/-- R43: a recomputation changes of a standing figure its owner and its drive alone. -/
theorem recompute_standing {p : Part} (h : allStand p) (k : FigIx) :
    ((recompute p).figures.read k).setpoint = (p.figures.read k).setpoint ∧
      ((recompute p).figures.read k).hold = (p.figures.read k).hold := by
  rw [recompute_figure]
  split
  · exact ⟨rfl, rfl⟩
  · rw [retargeted_standing (h k)]
    exact ⟨rfl, rfl⟩

theorem recompute_effected (n : LineIx) {p : Part} (h : allStand p) : Effected n p (recompute p) where
  toGrounded := recompute_grounded p
  toTold := recompute_told p
  toWired := wired_of_same (recompute_unheard h).1
  setpoint k := (recompute_standing h k).1
  hold k _ _ := by rw [(recompute_standing h k).2]

theorem discardPending_effected (n : LineIx) (p : Part) (i : SlotIx) : Effected n p (discardPending p i) := by
  unfold discardPending
  split
  · exact Effected.trans (q := setSlot i (fun x => { x with waiting := none }) p)
      (effected_of_figures (setSlot_grounded _ _ p) (told_of_same rfl) (wired_of_same rfl) rfl) (latchEvent_effected n _ _)
  · exact Effected.refl n p

theorem idled_told (p : Part) : Told p (idled p) ∧ Wired p (idled p) ∧ Grounded p (idled p) :=
  ⟨told_of_same rfl, wired_of_same rfl, by constructor <;> rfl⟩

theorem stopSlots_effected (n : LineIx) {p : Part} (h : allStand p) : Effected n p (stopSlots p) := by
  obtain ⟨-, figures⟩ := idled_same p
  obtain ⟨told, wired, grounded⟩ := idled_told p
  have idle : Effected n p (idled p) := effected_of_figures grounded told wired figures
  rw [stopSlots_eq]
  generalize idled p = q at *
  refine (idle.trans (foldl_effected discardPending allSlots q (discardPending_effected n))).trans (recompute_effected n fun k => ?_)
  rw [foldl_discardPending_figures, figures]
  exact h k

theorem allStop_effected (n : LineIx) (p : Part) : Effected n p (allStop n p) := by
  rw [allStop_eq]
  exact (stilled_effected n p).trans (stopSlots_effected n fun k => (stilled_holds n p k).2)

theorem classEffect_effected (n : LineIx) (p : Part) : Effected n p (classEffect n p) := by
  unfold classEffect
  dsimp only
  split
  · exact Effected.refl n p
  · exact foldl_effected _ _ _ fun q k => freezeInZones_effected n _ k q
  · exact allStop_effected n p

end Sys2Proof.Machine
end

section
/-! APPLY CONFIG (R99, R107, R113, R161). -/

namespace Sys2Proof.Machine

/-! ## One line re-examined (R107) -/

/-- R107: the settle deadline of a line re-examined; `old` is the line before the request and `held` whether it is still in
some hold set. -/
def resettled (old l : GuardLine) (held : Bool) (now : Nat) : Option Nat :=
  match old.asserted, l.asserted with
  | false, true => none
  | true, false => if l.config.autoResume = true ∧ (l.config.cls ≠ .note ∨ held = true) then some (now + l.config.settleTime) else l.settle
  | true, true => l.settle
  | false, false => if l.config.autoResume = false then none else if l.settle.isSome then l.settle else some (now + l.config.settleTime)

/-- R107: whether the line latches its source and has its class's effect. -/
def takesEffect (old l : GuardLine) : Prop :=
  l.asserted = true ∧ (old.asserted = false ∨ old.config.cls ≠ l.config.cls ∨ old.config.zones ≠ l.config.zones)

theorem setLine_fixed {n : LineIx} {f : GuardLine → GuardLine} {p : Part} (h : f (p.guard.lines.read n) = p.guard.lines.read n) :
    setLine n f p = p := by
  simp only [setLine, Bank.update_of_fixed h]

section
variable {old : GuardLine} {n : LineIx} {p : Part}

theorem reexamine_effect (h : takesEffect old (p.guard.lines.read n)) : reexamine old n p =
    classEffect n (latchEvent n.val (setLine n (fun x => { x with
      settle := resettled old (p.guard.lines.read n) (lineHeld n p) p.lineTime }) p)) := by
  obtain ⟨asserted, changed⟩ := h
  rw [reexamine, asserted]
  cases was : old.asserted with
  | false => rw [resettled, was, asserted]; rfl
  | true =>
    have other : ¬ (decide (old.config.cls = (p.guard.lines.read n).config.cls) &&
        decide (old.config.zones = (p.guard.lines.read n).config.zones)) = true := by
      rw [Bool.and_eq_true, decide_eq_true_eq, decide_eq_true_eq]
      rintro ⟨cls, zones⟩
      rw [was] at changed
      rcases changed with h | h | h
      · cases h
      · exact h cls
      · exact h zones
    rw [setLine_fixed (by rw [resettled, was, asserted])]
    exact if_neg other

theorem setLine_settled {t : Option Nat} (h : (p.guard.lines.read n).settle = t) :
    setLine n (fun x => { x with settle := t }) p = p := setLine_fixed (by rw [← h])

theorem reexamineSettle_eq (n : LineIx) (p : Part) : reexamineSettle n p = setLine n (fun x => { x with
    settle := if (p.guard.lines.read n).config.autoResume = false then none
      else if (p.guard.lines.read n).settle.isSome then (p.guard.lines.read n).settle
      else some (p.lineTime + (p.guard.lines.read n).config.settleTime) }) p := by
  rw [reexamineSettle]
  split
  next settle resumes => rw [if_pos resumes]
  next settle resumes =>
    rw [settle, resumes]
    exact setLine_congr rfl
  next settle resumes => exact (setLine_settled (by rw [settle, resumes]; rfl)).symm
  next settle resumes => exact (setLine_settled (by rw [settle, resumes]; rfl)).symm

theorem deassertLine_eq (n : LineIx) (p : Part) : deassertLine n p = setLine n (fun x => { x with
    settle := if (p.guard.lines.read n).config.autoResume = true ∧ ((p.guard.lines.read n).config.cls ≠ .note ∨ lineHeld n p = true)
      then some (p.lineTime + (p.guard.lines.read n).config.settleTime) else (p.guard.lines.read n).settle }) p := by
  have begins : ((p.guard.lines.read n).config.autoResume && ((p.guard.lines.read n).config.cls ≠ .note || lineHeld n p)) = true ↔
      ((p.guard.lines.read n).config.autoResume = true ∧ ((p.guard.lines.read n).config.cls ≠ .note ∨ lineHeld n p = true)) := by
    rw [Bool.and_eq_true, Bool.or_eq_true, decide_eq_true_iff]
  rw [deassertLine]
  split
  next settles => rw [if_pos (begins.mp settles)]
  next not => exact (setLine_settled (if_neg fun h => not (begins.mpr h)).symm).symm

theorem reexamine_noEffect (h : ¬ takesEffect old (p.guard.lines.read n)) : reexamine old n p =
    setLine n (fun x => { x with settle := resettled old (p.guard.lines.read n) (lineHeld n p) p.lineTime }) p := by
  rw [reexamine, resettled]
  cases was : old.asserted with
  | false =>
    cases asserted : (p.guard.lines.read n).asserted with
    | true => exact absurd ⟨asserted, .inl was⟩ h
    | false => exact reexamineSettle_eq n p
  | true =>
    cases asserted : (p.guard.lines.read n).asserted with
    | true =>
      have same : old.config.cls = (p.guard.lines.read n).config.cls ∧ old.config.zones = (p.guard.lines.read n).config.zones := by
        by_contra other
        rcases not_and_or.mp other with cls | zones
        · exact h ⟨asserted, .inr (.inl cls)⟩
        · exact h ⟨asserted, .inr (.inr zones)⟩
      refine (if_pos ?_).trans (setLine_settled rfl).symm
      rw [Bool.and_eq_true, decide_eq_true_eq, decide_eq_true_eq]
      exact same
    | false => exact deassertLine_eq n p

end

/-! ## All the lines re-examined (R107) -/

/-- What the re-examinations of the lines of `S` keep: all but the guard unit of `Grounded`, every setpoint, the other lines and
what they hold, and an ALL-STOP's hold. -/
structure Worked (S : LineIx → Prop) (p q : Part) : Prop extends Told p q, Wired p q where
  ground : Grounded { p with guard := q.guard } q
  setpoint : ∀ k, (q.figures.read k).setpoint = (p.figures.read k).setpoint
  line : ∀ m, ¬ S m → q.guard.lines.read m = p.guard.lines.read m
  hold : ∀ k m, ¬ S m → (q.figures.read k).hold.getLsbD m = (p.figures.read k).hold.getLsbD m
  quiet : quiet p → quiet q
  holds : ∀ m, Machine.quiet p → holdsEvery m p → holdsEvery m q

section
variable {S T : LineIx → Prop} {p q r : Part} {n : LineIx}

theorem Worked.refl (S : LineIx → Prop) (p : Part) : Worked S p p :=
  ⟨Told.refl p, Wired.refl p, Grounded.refl p, fun _ => rfl, fun _ _ => rfl, fun _ _ _ => rfl, id, fun _ _ => id⟩

theorem Worked.trans (h : Worked S p q) (k : Worked S q r) : Worked S p r where
  toTold := h.toTold.trans k.toTold
  toWired := h.toWired.trans k.toWired
  ground := Grounded.trans (q := { q with guard := r.guard })
    { h.ground with guard := rfl } k.ground
  setpoint j := (k.setpoint j).trans (h.setpoint j)
  line m other := (k.line m other).trans (h.line m other)
  hold j m other := (k.hold j m other).trans (h.hold j m other)
  quiet := k.quiet ∘ h.quiet
  holds m still hold := k.holds m (h.quiet still) (h.holds m still hold)

theorem Worked.mono (h : Worked S p q) (le : ∀ m, S m → T m) : Worked T p q :=
  { h with line := fun m other => h.line m fun own => other (le m own), hold := fun k m other => h.hold k m fun own => other (le m own) }

theorem Effected.worked (h : Effected n p q) (steady : Steady p q) : Worked (· = n) p q where
  toTold := h.toTold
  toWired := h.toWired
  ground := { h.toGrounded with guard := rfl }
  setpoint := h.setpoint
  line m _ := by rw [h.guard]
  hold k m other := h.hold k m other
  quiet := steady.quiet
  holds := steady.holds

theorem setLine_worked (n : LineIx) (f : GuardLine → GuardLine) (p : Part) : Worked (· = n) p (setLine n f p) where
  toTold := told_of_same rfl
  toWired := wired_of_same rfl
  ground := by constructor <;> rfl
  setpoint _ := rfl
  line m other := Bank.read_update_ne _ _ _ _ other
  hold _ _ _ := rfl
  quiet := id
  holds _ _ := id

theorem reexamine_worked (old : GuardLine) (n : LineIx) (p : Part) : Worked (· = n) p (reexamine old n p) := by
  by_cases effect : takesEffect old (p.guard.lines.read n)
  · rw [reexamine_effect effect]
    exact ((setLine_worked n _ p).trans ((latchEvent_effected n _ _).worked (latchEvent_noted _ _).steady)).trans
      ((classEffect_effected n _).worked (classEffect_steady n _))
  · rw [reexamine_noEffect effect]
    exact setLine_worked n _ p

theorem foldl_reexamine_others (old : LineIx → GuardLine) {ns : List LineIx} (fresh : n ∉ ns) (p : Part) :
    Worked (· ≠ n) p (ns.foldl (fun x m => reexamine (old m) m x) p) := by
  induction ns generalizing p with
  | nil => exact Worked.refl _ p
  | cons m rest ih =>
    obtain ⟨first, later⟩ := not_or.mp fun e => fresh (List.mem_cons.mpr e)
    exact ((reexamine_worked (old m) m p).mono fun i e (hi : i = n) => first (hi.symm.trans e)).trans (ih later _)

/-- Each line becomes what its own re-examination makes of it; before that it has kept its record. -/
theorem foldl_reexamine_own (old : LineIx → GuardLine) {ns : List LineIx} (once : ns.Nodup) (listed : n ∈ ns) (p : Part) :
    ∃ q, Worked (· ≠ n) p q ∧ Worked (· ≠ n) (reexamine (old n) n q) (ns.foldl (fun x m => reexamine (old m) m x) p) := by
  induction ns generalizing p with
  | nil => cases listed
  | cons m rest ih =>
    obtain ⟨fresh, once⟩ := List.nodup_cons.mp once
    by_cases e : n = m
    · subst e
      exact ⟨p, Worked.refl _ p, foldl_reexamine_others old fresh _⟩
    · obtain ⟨q, before, after⟩ := ih once ((List.mem_cons.mp listed).resolve_left e) (reexamine (old m) m p)
      exact ⟨q, ((reexamine_worked (old m) m p).mono fun i e' (hi : i = n) => e (hi.symm.trans e')).trans before, after⟩

theorem foldl_reexamine_worked (old : LineIx → GuardLine) (ns : List LineIx) (p : Part) :
    Worked (fun _ => True) p (ns.foldl (fun x m => reexamine (old m) m x) p) := by
  induction ns generalizing p with
  | nil => exact Worked.refl _ p
  | cons m rest ih => exact ((reexamine_worked (old m) m p).mono fun _ _ => trivial).trans (ih _)

end

/-! ## The figures meet their soft limits (R99) -/

theorem faultMoving_told (k : FigIx) (why : FaultReason) (p : Part) :
    Told p (faultMoving k why p) ∧ Wired p (faultMoving k why p) := by
  have removed : Told p (removePoses k p) ∧ Wired p (removePoses k p) := ⟨told_of_same rfl, wired_of_same rfl⟩
  have braked := brakeFigure_told k (removePoses k p)
  have set : ∀ q : Part, Told q (setFigure k (·.asFaulted why) q) ∧ Wired q (setFigure k (·.asFaulted why) q) :=
    fun q => ⟨told_of_same rfl, wired_of_same rfl⟩
  have faulted := set (brakeFigure k (removePoses k p))
  exact ⟨((removed.1.trans braked.1).trans faulted.1).trans (latchEvent_noted _ _).told,
    ((removed.2.trans braked.2).trans faulted.2).trans (latchEvent_wired _ _)⟩

/-- R99: what becomes of figure `k`. -/
theorem clampFigure_own (k : FigIx) (p : Part) :
    ((clampFigure k p).figures.read k).hold = (p.figures.read k).hold ∧
    (∀ rec, (readFigure k [0, 2] p).1 = some rec →
      ((clampFigure k p).figures.read k).setpoint = max rec.lower (min rec.upper (p.figures.read k).setpoint)) ∧
    ((readFigure k [0, 2] p).1 = none → ((clampFigure k p).figures.read k).setpoint = (p.figures.read k).setpoint ∧
      ((clampFigure k p).figures.read k).moving = false) := by
  obtain ⟨b, own⟩ := readFigure_brake k k [0, 2] p
  rw [clampFigure, show figureLimitWords = [0, 2] from rfl]
  cases read : (readFigure k [0, 2] p).1 with
  | some rec =>
    dsimp only
    rw [setFigure_own, own]
    refine ⟨rfl, fun rec' h => ?_, fun h => by cases h⟩
    rw [← Option.some.inj h]
    rfl
  | none =>
    rw [readFigure_own_none read] at own
    dsimp only
    split
    next moves =>
      rw [faultMoving_own, readFigure_own_none read]
      exact ⟨rfl, fun rec h => by (cases h), fun _ => ⟨rfl, rfl⟩⟩
    next still =>
      rw [readFigure_own_none read]
      exact ⟨rfl, fun rec h => by (cases h), fun _ => ⟨rfl, Bool.eq_false_iff.mpr still⟩⟩

theorem clampFigure_told (k : FigIx) (p : Part) : Told p (clampFigure k p) ∧ Wired p (clampFigure k p) := by
  have read := readFigure_told k figureLimitWords p
  have wired := readFigure_wired k figureLimitWords p
  rw [clampFigure]
  split
  · exact ⟨read.trans (told_of_same rfl), wired.trans (wired_of_same rfl)⟩
  · split
    · have faulted := faultMoving_told k .table (readFigure k figureLimitWords p).2
      exact ⟨read.trans faulted.1, wired.trans faulted.2⟩
    · exact ⟨read, wired⟩

theorem foldl_wired {α : Type} (f : Part → α → Part) (as : List α) (p : Part) (h : ∀ q a, Wired q (f q a)) :
    Wired p (as.foldl f p) := by
  induction as generalizing p with
  | nil => exact Wired.refl p
  | cons a rest ih => exact (h p a).trans (ih (f p a))

theorem applyFigures_told (p : Part) : Told p (applyFigures p) ∧ Wired p (applyFigures p) :=
  ⟨foldl_told _ _ p fun q k => (clampFigure_told k q).1, foldl_wired _ _ p fun q k => (clampFigure_told k q).2⟩

theorem applyFigures_posed (p : Part) : Posed (fun _ => True) p (applyFigures p) :=
  foldl_posed _ _ p fun q k => (clampFigure_posed k q).mono fun _ _ => trivial

theorem applyFigures_own (p : Part) (k : FigIx) :
    ((applyFigures p).figures.read k).hold = (p.figures.read k).hold ∧
    (∀ rec, (readFigure k [0, 2] p).1 = some rec →
      ((applyFigures p).figures.read k).setpoint = max rec.lower (min rec.upper (p.figures.read k).setpoint)) ∧
    ((readFigure k [0, 2] p).1 = none → ((applyFigures p).figures.read k).setpoint = (p.figures.read k).setpoint ∧
      ((applyFigures p).figures.read k).moving = false) := by
  obtain ⟨q, before, after⟩ := foldl_own (f := fun q k => clampFigure k q) (fun q j => clampFigure_posed j q) allFigures_once
    (mem_allFigures k) p
  have own := clampFigure_own k q
  rw [before.others k fun h => h rfl, readFigure_fst_congr before.words] at own
  rw [applyFigures, after.others k fun h => h rfl]
  exact own

/-! ## The tests of the changed settings (R48, R65) -/

theorem applyTests_frame (old : Settings) (p : Part) : Grounded p (applyTests old p) ∧ Told p (applyTests old p) ∧
    Wired p (applyTests old p) ∧ (applyTests old p).figures = p.figures ∧ Steady p (applyTests old p) := by
  have figures : ∀ (is : List SlotIx) (q : Part), (is.foldl (fun x s => readDueSteps s x) q).figures = q.figures := by
    intro is
    induction is with
    | nil => exact fun _ => rfl
    | cons i rest ih => exact fun q => (ih _).trans (readDueSteps_figures i q)
  have read : Grounded p (if p.settings.lookahead = old.lookahead then p else allSlots.foldl (fun x s => readDueSteps s x) p) ∧
      Told p (if p.settings.lookahead = old.lookahead then p else allSlots.foldl (fun x s => readDueSteps s x) p) ∧
      Wired p (if p.settings.lookahead = old.lookahead then p else allSlots.foldl (fun x s => readDueSteps s x) p) ∧
      (if p.settings.lookahead = old.lookahead then p else allSlots.foldl (fun x s => readDueSteps s x) p).figures = p.figures ∧
      Steady p (if p.settings.lookahead = old.lookahead then p else allSlots.foldl (fun x s => readDueSteps s x) p) := by
    split
    · exact ⟨Grounded.refl p, Told.refl p, Wired.refl p, rfl, Steady.refl p⟩
    · exact ⟨foldl_grounded _ _ p fun q s => readDueSteps_grounded s q, foldl_told _ _ p fun q s => readDueSteps_told s q,
        foldl_wired _ _ p fun q s => readDueSteps_wired s q, figures allSlots p, foldl_steady _ _ p fun q s => readDueSteps_steady s q⟩
  obtain ⟨grounded, told, wired, same, steady⟩ := read
  unfold applyTests
  dsimp only
  split
  · exact ⟨grounded, told, wired, same, steady⟩
  · have released := releaseDue_struck
      (if p.settings.lookahead = old.lookahead then p else allSlots.foldl (fun x s => readDueSteps s x) p)
    exact ⟨grounded.trans released.grounded, told.trans released.toTold, wired.trans released.toWired,
      released.figures.trans same, steady.trans (releaseDue_steady _)⟩

/-! ## The event unit configured (R113) -/

theorem applyEvents_noted (w : Nat → Word) (p : Part) : Noted { p with events := p.events.configured w } (applyEvents w p) ∧
    Wired { p with events := p.events.configured w } (applyEvents w p) := by
  unfold applyEvents
  dsimp only
  split
  · exact ⟨Noted.refl _, Wired.refl _⟩
  · exact ⟨raiseAttention_noted _, raiseAttention_wired _⟩

end Sys2Proof.Machine
end

section
/-! APPLY CONFIG: the configuration block put in place (R107, R161). -/

namespace Sys2Proof.Machine

/-! ## The guard lines (R107) -/

/-- A line with its new configuration. -/
def GuardLine.configured (l : GuardLine) (c : GuardConfig) : GuardLine := { l with config := c }

/-- The part with every line newly configured, before the lines are re-examined. -/
def configureLines (w : Nat → Word) (p : Part) : Part :=
  { p with guard := { p.guard with lines := Vector.ofFn fun n => (p.guard.lines.read n).configured (guardConfigOf w n) } }

theorem applyGuards_eq (w : Nat → Word) (p : Part) : applyGuards w p =
    allLines.foldl (fun x n => reexamine (p.guard.lines.read n) n x) (configureLines w p) := by
  rw [applyGuards, setLines_eq fun n l => { l with config := guardConfigOf w n }]
  rfl

theorem configureLines_line (w : Nat → Word) (p : Part) (n : LineIx) :
    (configureLines w p).guard.lines.read n = (p.guard.lines.read n).configured (guardConfigOf w n) := Bank.read_ofFn _ _

theorem configureLines_frame (w : Nat → Word) (p : Part) : ∃ lines : Bank GuardLine 8,
    configureLines w p = { p with guard := { p.guard with lines := lines } } := ⟨_, rfl⟩

/-- R107, R161: what the new configuration makes of line `n`, which was `old`. -/
structure LineApplied (w : Nat → Word) (n : LineIx) (old : GuardLine) (p q : Part) : Prop where
  line : q.guard.lines.read n = { old.configured (guardConfigOf w n) with
    settle := resettled old (old.configured (guardConfigOf w n)) (lineHeld n p) p.lineTime }
  latched : takesEffect old (old.configured (guardConfigOf w n)) → member q.events.latches n.val = true
  stops : takesEffect old (old.configured (guardConfigOf w n)) → (guardConfigOf w n).cls = .allStop → quiet q ∧ holdsEvery n q
  freezes : takesEffect old (old.configured (guardConfigOf w n)) → (guardConfigOf w n).cls = .zoneFreeze → p.table.clean →
    ∀ k, (zoneRecord p.table.words k).node ≠ 0 → (guardConfigOf w n).zones.getLsbD (zoneRecord p.table.words k).zone = true →
      (q.figures.read k).hold.getLsbD n = true

theorem lineHeld_congr {n : LineIx} {p q : Part}
    (h : ∀ k, (q.figures.read k).hold.getLsbD n = (p.figures.read k).hold.getLsbD n) : lineHeld n q = lineHeld n p := by
  rw [Bool.eq_iff_iff, lineHeld_iff, lineHeld_iff]
  exact exists_congr fun k => by rw [h k]

/-- R96, R104: a ZONE-FREEZE effect holds every fitted figure of the line's zones. -/
theorem classEffect_freezes {n : LineIx} {p : Part} (cls : (p.guard.lines.read n).config.cls = .zoneFreeze) (clean : p.table.clean)
    {k : FigIx} (fitted : (zoneRecord p.table.words k).node ≠ 0)
    (zone : (p.guard.lines.read n).config.zones.getLsbD (zoneRecord p.table.words k).zone = true) :
    ((classEffect n p).figures.read k).hold.getLsbD n = true := by
  obtain ⟨q, before, after⟩ := foldl_own (f := fun x k => freezeInZones n (p.guard.lines.read n).config.zones k x)
    (fun x j => freezeInZones_posed n _ j x) allFigures_once (mem_allFigures k) p
  have words := before.words
  have still : q.table.clean := by rw [Table.clean, words]; exact clean
  rw [classEffect, cls]
  dsimp only
  rw [after.others k fun h => h rfl, freezeInZones_fitted still (by rw [words]; exact fitted), words, if_pos zone, addHold_own,
    LiveFigure.held_hold, setMember, BitVec.getLsbD_or, BitVec.getLsbD_twoPow]
  simp

theorem applyGuards_line (w : Nat → Word) (p : Part) (n : LineIx) :
    LineApplied w n (p.guard.lines.read n) p (applyGuards w p) := by
  obtain ⟨q, before, after⟩ := foldl_reexamine_own (fun m => p.guard.lines.read m) (List.nodup_finRange 8) (List.mem_finRange n)
    (configureLines w p)
  have config := configureLines_line w p n
  obtain ⟨lines, eq⟩ := configureLines_frame w p
  rw [applyGuards_eq]
  rw [show List.finRange 8 = allLines from rfl] at after
  generalize allLines.foldl (fun x m => reexamine (p.guard.lines.read m) m x) (configureLines w p) = r at after
  have stays : ∀ m : LineIx, m = n → ¬ m ≠ n := fun m own other => other own
  have line : q.guard.lines.read n = (p.guard.lines.read n).configured (guardConfigOf w n) :=
    (before.line n (stays n rfl)).trans config
  have held : lineHeld n q = lineHeld n p := lineHeld_congr fun k => by rw [before.hold k n (stays n rfl), eq]
  have time : q.lineTime = p.lineTime := by rw [before.ground.lineTime, eq]
  have words : q.table.words = p.table.words := by rw [before.ground.words, eq]
  have own : (reexamine (p.guard.lines.read n) n q).guard.lines.read n = { (p.guard.lines.read n).configured (guardConfigOf w n) with
      settle := resettled (p.guard.lines.read n) ((p.guard.lines.read n).configured (guardConfigOf w n)) (lineHeld n p) p.lineTime } := by
    by_cases effect : takesEffect (p.guard.lines.read n) (q.guard.lines.read n)
    · rw [reexamine_effect effect, (classEffect_grounded _ _).guard, (latchEvent_noted _ _).guard, setLine_own, line, held, time]
    · rw [reexamine_noEffect effect, setLine_own, line, held, time]
  have effected : takesEffect (p.guard.lines.read n) ((p.guard.lines.read n).configured (guardConfigOf w n)) →
      ∃ f, reexamine (p.guard.lines.read n) n q = classEffect n (latchEvent n.val (setLine n f q)) ∧
        ((latchEvent n.val (setLine n f q)).guard.lines.read n).config = guardConfigOf w n := by
    intro effect
    rw [← line] at effect
    refine ⟨_, reexamine_effect effect, ?_⟩
    rw [(latchEvent_noted _ _).guard, setLine_own, line]
    rfl
  refine ⟨(after.line n (stays n rfl)).trans own, fun effect => ?_, fun effect cls => ?_, fun effect cls clean k fitted zone => ?_⟩
  · obtain ⟨f, form, -⟩ := effected effect
    rw [form] at after
    exact after.latched n.val ((classEffect_effected n _).latched n.val (member_latchEvent (by omega) _))
  · obtain ⟨f, form, is⟩ := effected effect
    rw [form] at after
    obtain ⟨still, holds⟩ := classEffect_stops (n := n) (p := latchEvent n.val (setLine n f q)) (by rw [is]; exact cls)
    exact ⟨after.quiet still, after.holds n still holds⟩
  · obtain ⟨f, form, is⟩ := effected effect
    rw [form] at after
    have same : (latchEvent n.val (setLine n f q)).table.words = p.table.words := by
      rw [(latchEvent_noted _ _).words]
      exact words
    rw [after.hold k n (stays n rfl)]
    refine classEffect_freezes (by rw [is]; exact cls) (by rw [Table.clean, same]; exact clean) (by rw [same]; exact fitted) ?_
    rw [is, same]
    exact zone

/-! ## The stages (R161) -/

/-- Steps 1 to 4, before the ATTENTION frame that step 4 may raise. -/
def configuredPart (w : Nat → Word) (p : Part) : Part :=
  { applyLevels w (applySettings w p) with events := p.events.configured w }

/-- Steps 1 to 4. -/
def listedPart (w : Nat → Word) (p : Part) : Part := applyEvents w (applyLevels w (applySettings w p))

/-- Steps 1 to 5. -/
def guardedPart (w : Nat → Word) (p : Part) : Part := applyGuards w (listedPart w p)

/-- Steps 1 to 7. -/
def limitedPart (w : Nat → Word) (p : Part) : Part := applyFigures (applyTimers w (guardedPart w p))

theorem applyBlock_eq (w : Nat → Word) (p : Part) : applyBlock w p = applyTests p.settings (limitedPart w p) := rfl

theorem listedPart_noted (w : Nat → Word) (p : Part) :
    Noted (configuredPart w p) (listedPart w p) ∧ Wired (configuredPart w p) (listedPart w p) :=
  applyEvents_noted w (applyLevels w (applySettings w p))

theorem guardedPart_worked (w : Nat → Word) (p : Part) :
    Worked (fun _ => True) (configureLines w (listedPart w p)) (guardedPart w p) := by
  rw [guardedPart, applyGuards_eq]
  exact foldl_reexamine_worked _ _ _

/-- What APPLY CONFIG changes of no block and of no setpoint, up to the figures' reading of their limits. -/
theorem guardedPart_frame (w : Nat → Word) (p : Part) : Told (configuredPart w p) (guardedPart w p) ∧
    Wired (configuredPart w p) (guardedPart w p) ∧ sameGround { p with settings := settingsOf w } (guardedPart w p) ∧
    (guardedPart w p).cal = p.cal ∧ (guardedPart w p).filter = p.filter ∧
    ∀ k, ((guardedPart w p).figures.read k).setpoint = (p.figures.read k).setpoint := by
  obtain ⟨noted, wired⟩ := listedPart_noted w p
  have worked := guardedPart_worked w p
  obtain ⟨lines, eq⟩ := configureLines_frame w (listedPart w p)
  have configured : Told (listedPart w p) (configureLines w (listedPart w p)) ∧
      Wired (listedPart w p) (configureLines w (listedPart w p)) := by
    rw [eq]
    exact ⟨told_of_same rfl, wired_of_same rfl⟩
  have told := configured.1.trans worked.toTold
  have wires := configured.2.trans worked.toWired
  rw [eq] at worked
  have ground := noted.grounded
  have last := worked.ground
  refine ⟨noted.told.trans told, wired.trans wires,
    ⟨last.lineTime.trans ground.lineTime, last.phase.trans ground.phase, last.up.trans ground.up, last.down.trans ground.down,
      last.words.trans ground.words, last.settings.trans ground.settings, last.verify.trans ground.verify⟩,
    last.cal.trans ground.cal, last.filter.trans ground.filter, fun k => (worked.setpoint k).trans ?_⟩
  exact congrArg (fun x : Bank LiveFigure 16 => (x.read k).setpoint) noted.figures

/-- R161: the block in place. -/
structure BlockApplied (w : Nat → Word) (p q : Part) : Prop where
  told : Told (configuredPart w p) q
  wired : Wired (configuredPart w p) q
  ground : sameGround { p with settings := settingsOf w } q
  cal : q.cal = { p.cal with timers := Vector.ofFn (timerOf w) }
  filter : q.filter = p.filter
  line : ∀ n, LineApplied w n (p.guard.lines.read n) p q
  limited : ∀ k rec, (readFigure k [0, 2] p).1 = some rec →
    (q.figures.read k).setpoint = max rec.lower (min rec.upper (p.figures.read k).setpoint)
  unread : ∀ k, (readFigure k [0, 2] p).1 = none →
    (q.figures.read k).setpoint = (p.figures.read k).setpoint ∧ (q.figures.read k).moving = false

theorem limitedPart_line (w : Nat → Word) (p : Part) (n : LineIx) :
    LineApplied w n (p.guard.lines.read n) p (limitedPart w p) := by
  have applied := applyGuards_line w (listedPart w p) n
  have noted := (listedPart_noted w p).1
  have carried := noted.carried
  have figures : (listedPart w p).figures = p.figures := noted.figures
  have posed := applyFigures_posed (applyTimers w (guardedPart w p))
  have told := (applyFigures_told (applyTimers w (guardedPart w p))).1
  have steady : Steady (applyTimers w (guardedPart w p)) (limitedPart w p) :=
    foldl_steady _ _ _ fun q k => clampFigure_steady k q
  have guard : (listedPart w p).guard = p.guard := carried.guard
  have time : (listedPart w p).lineTime = p.lineTime := carried.lineTime
  have words : (listedPart w p).table.words = p.table.words := carried.words
  have held : lineHeld n (listedPart w p) = lineHeld n p := lineHeld_congr fun k => by rw [figures]
  rw [guard] at applied
  exact {
    line := by
      rw [← held, ← time, ← applied.line]
      exact congrArg (fun u : GuardUnit => u.lines.read n) posed.guard
    latched := fun effect => told.latched n.val (applied.latched effect)
    stops := fun effect cls => by
      obtain ⟨still, holds⟩ := applied.stops effect cls
      exact ⟨steady.quiet still, steady.holds n still holds⟩
    freezes := fun effect cls clean k fitted zone => by
      rw [limitedPart, (applyFigures_own _ k).1]
      exact applied.freezes effect cls (by rw [Table.clean, words]; exact clean) k (by rw [words]; exact fitted)
        (by rw [words]; exact zone) }

theorem applyBlock_applied (w : Nat → Word) (p : Part) : BlockApplied w p (applyBlock w p) := by
  rw [applyBlock_eq]
  obtain ⟨tested, toldTests, wiredTests, figures, steady⟩ := applyTests_frame p.settings (limitedPart w p)
  obtain ⟨told, wired, ground, cal, filter, setpoint⟩ := guardedPart_frame w p
  have posed := applyFigures_posed (applyTimers w (guardedPart w p))
  obtain ⟨toldLimits, wiredLimits⟩ := applyFigures_told (applyTimers w (guardedPart w p))
  have lines := limitedPart_line w p
  have own := applyFigures_own (applyTimers w (guardedPart w p))
  have timers : (applyTimers w (guardedPart w p)).cal = { p.cal with timers := Vector.ofFn (timerOf w) } := by
    rw [← cal]
    rfl
  rw [show applyFigures (applyTimers w (guardedPart w p)) = limitedPart w p from rfl] at *
  obtain ⟨lineTime, phase, up, down, words, settings, verify⟩ := ground
  have reads : ∀ k, (readFigure k [0, 2] (applyTimers w (guardedPart w p))).1 = (readFigure k [0, 2] p).1 := fun k =>
    readFigure_fst_congr (p := p) (q := applyTimers w (guardedPart w p)) words k [0, 2]
  have told' : Told (configuredPart w p) (applyTimers w (guardedPart w p)) := told.trans (told_of_same rfl)
  have wired' : Wired (configuredPart w p) (applyTimers w (guardedPart w p)) := wired.trans (wired_of_same rfl)
  have lived : ∀ k, ((applyTimers w (guardedPart w p)).figures.read k).setpoint = (p.figures.read k).setpoint := setpoint
  exact {
    told := (told'.trans toldLimits).trans toldTests
    wired := (wired'.trans wiredLimits).trans wiredTests
    ground := ⟨tested.lineTime.trans (posed.lineTime.trans lineTime), tested.phase.trans (posed.phase.trans phase),
      tested.up.trans (posed.up.trans up), tested.down.trans (posed.down.trans down),
      tested.words.trans (posed.words.trans words), tested.settings.trans (posed.settings.trans settings),
      tested.verify.trans (posed.verify.trans verify)⟩
    cal := tested.cal.trans (posed.cal.trans timers)
    filter := tested.filter.trans (posed.filter.trans filter)
    line := fun n => {
      line := by rw [tested.guard, (lines n).line]
      latched := fun effect => toldTests.latched n.val ((lines n).latched effect)
      stops := fun effect cls => by
        obtain ⟨still, holds⟩ := (lines n).stops effect cls
        exact ⟨steady.quiet still, steady.holds n still holds⟩
      freezes := fun effect cls clean k fitted zone => by
        rw [figures]
        exact (lines n).freezes effect cls clean k fitted zone }
    limited := fun k rec h => by
      rw [figures, (own k).2.1 rec ((reads k).trans h), lived]
    unread := fun k h => by
      obtain ⟨same, still⟩ := (own k).2.2 ((reads k).trans h)
      rw [figures]
      exact ⟨same.trans (lived k), still⟩ }

/-! ## APPLY CONFIG answered (R161) -/

theorem allOf_eq_none {l : List (Option Word)} : allOf l = none ↔ none ∈ l := by
  induction l with
  | nil => simp [allOf]
  | cons a rest ih =>
    cases a with
    | none => simp [allOf]
    | some w => simp [allOf, ih]

theorem applyConfigRequest_table {e : IntakeEntry} {p : Part} (h : none ∈ (readEach .management (List.range 64) p).1) :
    applyConfigRequest e p = answer e .table [] (readEach .management (List.range 64) p).2 := by
  rw [applyConfigRequest]
  dsimp only
  rw [allOf_eq_none.mpr h]

theorem applyConfigRequest_block {e : IntakeEntry} {p : Part} (h : none ∉ (readEach .management (List.range 64) p).1) :
    let w := fun k => ((readEach .management (List.range 64) p).1.getD k none).getD 0
    applyConfigRequest e p = answer e (if blockClamped w then .clamped else .done) []
      (applyBlock w (readEach .management (List.range 64) p).2) := by
  intro w
  cases all : allOf (readEach .management (List.range 64) p).1 with
  | none => exact absurd (allOf_eq_none.mp all) h
  | some ws =>
    have words : (fun k => ws.getD k 0) = w := by
      funext k
      simp only [w, allOf_eq_some.mp all, List.getD_eq_getElem?_getD, List.getElem?_map]
      cases ws[k]? <;> rfl
    rw [applyConfigRequest]
    dsimp only
    rw [all]
    dsimp only
    rw [words]

theorem PinState.moded_mode (x : PinState) (m : PinMode) : (x.moded m).mode = m := by
  unfold moded
  split
  next same => exact same
  next => rfl

/-- R113: a pin that leaves PULSE mode has no pulse. -/
theorem PinState.moded_level {x : PinState} {m : PinMode} (pulse : x.mode = .pulse) (level : m = .level) :
    (x.moded m).pulseEnd = none := by
  rw [moded, if_neg (by rw [pulse, level]; decide)]

/-- R113: and so it is after the causes that follow. -/
theorem pulseEnd_none {x y : PinState} {m : PinMode} (h : (x.moded m).stands y) (pulse : x.mode = .pulse) (level : y.mode = .level) :
    y.pulseEnd = none := by
  have is : m = .level := by rw [← PinState.moded_mode x m, ← h.1, level]
  rw [h.2 (by rw [PinState.moded_mode, is]), PinState.moded_level pulse is]

/-- Settles O50. -/
theorem applyConfigPutsTheBlockInPlace : Obligations.ApplyConfigPutsTheBlockInPlace := by
  intro s e rest waiting p r
  have asked : exec .applyConfig s = .next (s.withPart (applyConfigRequest e p)) :=
    onRequest_waiting .applyConfig applyConfigRequest s e rest waiting
  refine ⟨fun disturbed => by rw [asked, applyConfigRequest_table disturbed], fun sound => ?_⟩
  intro w
  have noted : Noted p r.2 := readEach_noted .management (List.range 64) p
  have wired : Wired p r.2 := readEach_wired .management (List.range 64) p
  have applied := applyBlock_applied w r.2
  refine ⟨applyBlock w r.2, by rw [asked, applyConfigRequest_block sound], ?_⟩
  clear_value w r
  generalize applyBlock w r.2 = q at applied
  generalize r.2 = x at *
  have stop := applied.wired.stop
  have beacon := applied.wired.beacon
  have guard : x.guard = s.part.guard := noted.guard
  have figures : x.figures = s.part.figures := noted.figures
  have words : x.table.words = s.part.table.words := noted.words
  have mode : q.out.mode = ReleaseMode.ofCode (releaseField w).value := applied.told.mode
  have carried := noted.carried
  obtain ⟨lineTime, phase, up, down, same, settings, verify⟩ := applied.ground
  refine ⟨settings, applied.told.levels, mode, ?_, applied.wired.enables, applied.wired.routeFrame, applied.wired.routeStop,
    applied.wired.routeBeacon, fun n => ?_, applied.cal.trans (by rw [carried.cal]; rfl), applied.filter.trans carried.filter,
    ⟨lineTime.trans carried.lineTime, phase.trans carried.phase, up.trans carried.up, down.trans carried.down, same.trans words,
      settings, verify.trans carried.verify⟩,
    stop.1.trans (PinState.moded_mode _ _), beacon.1.trans (PinState.moded_mode _ _),
    fun pulse => pulseEnd_none stop (wired.stop.1.trans pulse), fun pulse => pulseEnd_none beacon (wired.beacon.1.trans pulse),
    fun n => ?_, fun k => ⟨fun rec h => ?_, fun h => ?_⟩⟩
  · have before : x.out.mode = s.part.out.mode := noted.told.mode
    have mark : x.out.mark = s.part.out.mark := noted.told.mark
    rw [mode, ← before, ← mark]
    exact applied.told.mark
  · rw [(applied.line n).line, guard]
    exact ⟨rfl, rfl, rfl⟩
  · intro old new is held begun effect
    have line := applied.line n
    rw [guard] at line
    have asserted : (old.configured new).asserted = is := beq_eq_decide _ _
    have holds : lineHeld n x = held := by
      rw [Bool.eq_iff_iff, lineHeld_iff, figures]
      exact decide_eq_true_iff.symm
    have time : x.lineTime = s.part.lineTime := carried.lineTime
    have effects : effect → takesEffect old (old.configured new) := fun h => ⟨asserted.trans h.1, h.2⟩
    refine ⟨?_, fun h => line.latched (effects h), fun h => line.stops (effects h), fun h cls clean k => ?_⟩
    · rw [line.line, holds, time]
      dsimp only
      rw [resettled, asserted]
      rfl
    · have freezes := line.freezes (effects h) cls (by rw [Table.clean, words]; exact clean) k
      rw [words] at freezes
      exact freezes
  · rw [← figures]
    exact applied.limited k rec ((readFigure_fst_congr words k [0, 2]).trans h)
  · obtain ⟨setpoint, still⟩ := applied.unread k ((readFigure_fst_congr words k [0, 2]).trans h)
    rw [← figures]
    have rests := fun moves => Bool.eq_false_iff.mp still ((LiveFigure.moving_iff _).mpr moves)
    exact ⟨setpoint, fun driven => rests (.inl driven), fun homing => rests (.inr homing)⟩

end Sys2Proof.Machine
end

section
/-! VERIFY SHOW and its sweep (R167 to R169). -/

namespace Sys2Proof.Machine

/-! ## The order of the items (R168) -/

theorem VerifySweep.items_le (x : VerifySweep) : x.items ≤ 8 := Nat.min_le_right _ _

theorem VerifySweep.fromItem_succ (x : VerifySweep) (fuel i : Nat) : x.fromItem (fuel + 1) i =
    if x.items ≤ i then .finished
    else if (x.itemFigure i).isSome then .figure i 0
    else if (x.pathPointer i).any inHeap then .pathHeader i
    else x.fromItem fuel (i + 1) := rfl

/-- Fuel for the items left to try is fuel enough. -/
theorem VerifySweep.fromItem_enough (x : VerifySweep) (fuel i : Nat) (h : x.items ≤ i + fuel) :
    x.fromItem (fuel + 1) i = x.fromItem fuel i := by
  induction fuel generalizing i with
  | zero => exact if_pos h
  | succ fuel ih => rw [fromItem_succ x (fuel + 1) i, ih (i + 1) (by omega), fromItem_succ x fuel i]

/-! ## The reads of a millisecond (R168) -/

theorem sweepLoop_over {n : Nat} {p : Part} (h : p.verify.result.state ≠ .inProgress) : sweepLoop n p = p := by
  cases n with
  | zero => rfl
  | succ n => exact if_neg h

theorem sweepLoop_on {n : Nat} {p : Part} (h : p.verify.result.state = .inProgress) :
    sweepLoop (n + 1) p = sweepLoop n (sweepRead p) := if_pos h

/-- The reads go on until there are `n` of them or the sweep is over. -/
theorem sweepLoop_iterate (n : Nat) (p : Part) : ∃ m, m ≤ n ∧ sweepLoop n p = sweepRead^[m] p ∧
    (m = n ∨ (sweepLoop n p).verify.result.state ≠ .inProgress) ∧
    ∀ l, l < m → (sweepRead^[l] p).verify.result.state = .inProgress := by
  induction n generalizing p with
  | zero => exact ⟨0, le_refl 0, rfl, .inl rfl, fun l less => absurd less (Nat.not_lt_zero l)⟩
  | succ n ih =>
    by_cases on : p.verify.result.state = .inProgress
    · obtain ⟨m, le, eq, ends, before⟩ := ih (sweepRead p)
      rw [sweepLoop_on on]
      refine ⟨m + 1, Nat.succ_le_succ le, eq, ends.imp_left (congrArg (· + 1)), fun l less => ?_⟩
      cases l with
      | zero => exact on
      | succ l => exact before l (Nat.lt_of_succ_lt_succ less)
    · rw [sweepLoop_over on]
      exact ⟨0, Nat.zero_le _, rfl, .inr on, fun l less => absurd less (Nat.not_lt_zero l)⟩

/-! ## One read (R168, R169) -/

/-- R168: one read of the sweep from address `a` that finds `faults` and goes on to `next`. -/
theorem sweepRead_reads {p : Part} {a : Nat} {faults : Option Word → List (VerifyFault × Nat)} {next : Option Word → VerifySweep}
    (address : p.verify.sweep.address p.verify.result.showIx = a)
    (meets : ∀ w, p.verify.sweep.meet p.verify.result.showIx a w = (faults w, next w)) :
    let r := readWord .verify a p
    let v := p.verify.result
    let counted : VerifyResult := { v with
      valid := if p.verify.sweep.position = .entry 0 then r.1.map fun w => byteAt w 0 ≠ 0 else v.valid
      wordsRead := v.wordsRead + 1
      uncorrectable := v.uncorrectable + if r.1.isNone then 1 else 0
      faults := v.faults + (faults r.1).length
      first := if v.first.isSome then v.first else (faults r.1).head? }
    sweepRead p = if (next r.1).position = .finished
      then latchEvent 25 { r.2 with verify := { result := { counted with state := .done }, sweep := next r.1 } }
      else { r.2 with verify := { result := counted, sweep := next r.1 } } := by
  intro r v counted
  have first : v.first.or (faults r.1).head? = if v.first.isSome then v.first else (faults r.1).head? := by
    cases v.first <;> rfl
  have counts : v.counted p.verify.sweep r.1 (faults r.1) = counted := by
    rw [VerifyResult.counted, first]
  rw [sweepRead]
  dsimp only
  rw [address, meets, counts]
  rfl

/-! ## What each read finds (R168) -/

theorem barrelStartsWell_eq (b : Nat) : barrelStartsWell b = decide (1152 ≤ b ∧ b ≤ 16382) := by
  rw [barrelStartsWell, inHeap, ← Bool.decide_and]
  exact decide_eq_decide.mpr (by simp only [heapStart, lastTableWord]; omega)

theorem barrelAstray_eq (b : Nat) : (decide (b ≠ 0) && !barrelStartsWell b) = decide (b ≠ 0 ∧ ¬ (1152 ≤ b ∧ b ≤ 16382)) := by
  rw [barrelStartsWell_eq, ← decide_not, ← Bool.decide_and]

section
variable {x : VerifySweep} {k : ShowIx} {a : Nat}

theorem address_entry {j : Nat} (h : x.position = .entry j) : x.address k = 640 + 16 * k.val + j := by
  rw [VerifySweep.address, h]
  rfl

section
variable {b : Nat} (barrel : x.barrelPointer = some b)
include barrel

theorem address_header {j : Nat} (h : x.position = .header j) : x.address k = b + j := by
  rw [VerifySweep.address, h]
  dsimp only
  rw [barrel]
  rfl

theorem address_rowMap {j : Nat} (h : x.position = .rowMap j) : x.address k = b + 2 + j := by
  rw [VerifySweep.address, h]
  dsimp only
  rw [barrel]
  rfl

theorem address_row {n j : Nat} (h : x.position = .row n j) :
    x.address k = b + 2 + (x.barrel.rows + 3) / 4 + n * x.barrel.span + j := by
  rw [VerifySweep.address, h]
  dsimp only
  rw [barrel]
  rfl

end

theorem address_figure {i j : Nat} {f : FigIx} (figure : x.itemFigure i = some f) (h : x.position = .figure i j) :
    x.address k = 256 + 8 * f.val + j := by
  rw [VerifySweep.address, h]
  dsimp only
  rw [figure]
  rfl

theorem address_pathHeader {i b : Nat} (pointer : x.pathPointer i = some b) (h : x.position = .pathHeader i) : x.address k = b := by
  rw [VerifySweep.address, h]
  dsimp only
  rw [pointer]
  rfl

theorem address_keyframe {i j b : Nat} (pointer : x.pathPointer i = some b) (h : x.position = .keyframe i j) :
    x.address k = b + 1 + j := by
  rw [VerifySweep.address, h]
  dsimp only
  rw [pointer]
  rfl

theorem meet_entry {j : Nat} (h : x.position = .entry j) (early : j < 15) (w : Option Word) :
    x.meet k a w = ([], { x with entry := x.entry ++ [w], position := .entry (j + 1) }) := by
  rw [VerifySweep.meet, h]
  exact if_pos early

theorem meet_lastEntry (h : x.position = .entry 15) (w : Option Word) : x.meet k a w =
    ((finding (({ x with entry := x.entry ++ [w] } : VerifySweep).barrelPointer.any
        fun b => b ≠ 0 ∧ ¬ (1152 ≤ b ∧ b ≤ 16382)) .invalidPointer (640 + 16 * k.val + 2) ++
      (List.range ({ x with entry := x.entry ++ [w] } : VerifySweep).items).flatMap fun i =>
        finding ((({ x with entry := x.entry ++ [w] } : VerifySweep).pathPointer i).any fun b => !decide (1152 ≤ b ∧ b ≤ 16383))
          .invalidPointer (640 + 16 * k.val + (21 + 5 * i) / 4)),
      if ({ x with entry := x.entry ++ [w] } : VerifySweep).barrelPointer.any fun b => 1152 ≤ b ∧ b ≤ 16382
      then { x with entry := x.entry ++ [w], position := .header 0 }
      else ({ x with entry := x.entry ++ [w] } : VerifySweep).toItem 0) := by
  rw [VerifySweep.meet, h]
  simp only [← barrelAstray_eq, ← barrelStartsWell_eq]
  rfl

theorem meet_firstHeader (h : x.position = .header 0) (w : Option Word) :
    x.meet k a w = ([], { x with header := x.header ++ [w], position := .header 1 }) := by
  rw [VerifySweep.meet, h]
  rfl

theorem meet_headerUnread (h : x.position = .header 1) (unread : x.header = [none]) (w : Option Word) :
    x.meet k a w = ([], ({ x with header := x.header ++ [w] } : VerifySweep).toItem 0) := by
  rw [VerifySweep.meet, h]
  simp only [VerifySweep.meetHeader, unread]
  rfl

theorem meet_header {b : Nat} {u : Word} (barrel : x.barrelPointer = some b) (h : x.position = .header 1)
    (read : x.header = [some u]) (w : Option Word) :
    let y : VerifySweep := { x with header := x.header ++ [w] }
    let beyond := decide (16383 < b + 1 + (y.barrel.rows + 3) / 4 + y.barrel.rows * y.barrel.span)
    x.meet k a w =
      (finding beyond .invalidPointer (640 + 16 * k.val + 2) ++
        finding (w.any fun z => halfAt z 1 < (y.barrel.steps * y.barrel.size + 3) / 4) .spanTooSmall a,
        if beyond then y.toItem 0 else { y with position := .rowMap 0 }) := by
  intro y beyond
  have good : ((x.header ++ [w]).getD 0 none).isNone = false := by rw [read]; rfl
  rw [VerifySweep.meet, h]
  dsimp only
  rw [VerifySweep.meetHeader]
  dsimp only
  rw [if_neg (by decide), if_neg (by rw [good]; exact Bool.false_ne_true),
    show ({ x with header := x.header ++ [w] } : VerifySweep).barrelPointer = some b from barrel]
  rfl

theorem meet_rowMap {j : Nat} (h : x.position = .rowMap j) (w : Option Word) :
    let y : VerifySweep := { x with mapGood := x.mapGood && w.isSome }
    x.meet k a w =
      ((List.range 4).flatMap fun n => finding (4 * j + n < x.barrel.rows && w.any fun z => 47 < byteAt z n) .bellAbove47 a,
        if j + 1 < (x.barrel.rows + 3) / 4 then { y with position := .rowMap (j + 1) }
        else if y.mapGood = true ∧ (x.header.getD 1 none).isSome = true then { y with position := .row 0 0 } else y.toItem 0) := by
  intro y
  have known : y.rowsKnown = true ↔ y.mapGood = true ∧ (x.header.getD 1 none).isSome = true := by
    rw [VerifySweep.rowsKnown, Bool.and_eq_true]
  rw [VerifySweep.meet, h]
  dsimp only
  rw [VerifySweep.meetRowMap]
  simp only [← known]
  rfl

theorem meet_row {n j : Nat} (h : x.position = .row n j) (w : Option Word) : x.meet k a w =
    ([], if j + 1 < (x.barrel.steps * x.barrel.size + 3) / 4 then { x with position := .row n (j + 1) }
      else if n + 1 < x.barrel.rows then { x with position := .row (n + 1) 0 } else x.toItem 0) := by
  rw [VerifySweep.meet, h]
  rfl

/-- R168: the third word of a figure record holds the soft limits. -/
def VerifySweep.limited (x : VerifySweep) (j : Nat) (w : Option Word) : VerifySweep :=
  if j = 2 then
    { x with limits := w.map fun z => (signedHalf (halfAt z 0), max (signedHalf (halfAt z 0)) (signedHalf (halfAt z 1))) }
  else x

theorem meet_figure {i j : Nat} (h : x.position = .figure i j) (w : Option Word) : x.meet k a w =
    ([], if j < 7 then { x.limited j w with position := .figure i (j + 1) }
      else if (x.pathPointer i).any inHeap then { x.limited j w with position := .pathHeader i }
      else (x.limited j w).toItem (i + 1)) := by
  have pointer : (x.limited j w).pathPointer i = x.pathPointer i := by
    rw [VerifySweep.limited]
    split <;> rfl
  rw [← pointer, VerifySweep.meet, h]
  rfl

theorem meet_pathHeader {i : Nat} (h : x.position = .pathHeader i) (w : Option Word) : x.meet k a w =
    (finding (w.any fun z => decide (16383 < a + clamp 2 32 (byteAt z 0))) .invalidPointer (640 + 16 * k.val + (21 + 5 * i) / 4) ++
        finding (w.any fun z => byteAt z 0 < 2 || 32 < byteAt z 0) .keyframeCount a,
      match w with
      | none => x.toItem (i + 1)
      | some z => if decide (16383 < a + clamp 2 32 (byteAt z 0)) then x.toItem (i + 1)
        else { x with position := .keyframe i 0, count := clamp 2 32 (byteAt z 0), previous := none }) := by
  rw [VerifySweep.meet, h]
  cases w <;> rfl

theorem meet_keyframe {i j : Nat} (h : x.position = .keyframe i j) (w : Option Word) :
    let y : VerifySweep := { x with previous := w.map fun z => halfAt z 0 }
    x.meet k a w =
      (finding (w.any fun z => x.previous.any fun t => halfAt z 0 ≤ t) .keyframeTime a ++
        finding (w.any fun z => x.limits.any fun l => signedHalf (halfAt z 1) < l.1 || l.2 < signedHalf (halfAt z 1))
          .keyframePosition a,
        if j + 1 < x.count then { y with position := .keyframe i (j + 1) } else y.toItem (i + 1)) := by
  rw [VerifySweep.meet, h]
  cases w <;> rfl

end

/-! ## What the sweep leaves alone (R168, R169) -/

/-- What reads of the sweep leave: of the blocks other than the verify unit they change no more than a cause can. -/
structure Swept (p q : Part) : Prop where
  noted : Noted { p with verify := q.verify } q
  showIx : q.verify.result.showIx = p.verify.result.showIx

theorem Swept.refl (p : Part) : Swept p p := ⟨Noted.refl p, rfl⟩

theorem Noted.setVerify {p q : Part} (h : Noted p q) (v : VerifyUnit) : Noted { p with verify := v } { q with verify := v } where
  frame := by
    rw [h.frame]
  grows := h.grows
  room := h.room
  latched := h.latched
  enables := h.enables
  routeFrame := h.routeFrame
  routeStop := h.routeStop
  routeBeacon := h.routeBeacon

theorem Swept.trans {p q r : Part} (h : Swept p q) (k : Swept q r) : Swept p r where
  noted := Noted.trans (q := { q with verify := r.verify }) (h.noted.setVerify r.verify) k.noted
  showIx := k.showIx.trans h.showIx

/-- What one read leaves of the result. -/
structure ReadOnce (p q : Part) : Prop extends Swept p q where
  wordsRead : q.verify.result.wordsRead = p.verify.result.wordsRead + 1
  goes : p.verify.result.state = .inProgress → q.verify.result.state = .inProgress ∨
    q.verify.result.state = .done ∧ q.events.latches.getLsbD 25 = true

theorem sweepRead_once (p : Part) : ReadOnce p (sweepRead p) := by
  rw [sweepRead]
  dsimp only
  have read : ∀ v : VerifyUnit, Noted { p with verify := v }
      { (readWord .verify (p.verify.sweep.address p.verify.result.showIx) p).2 with verify := v } := fun v =>
    (readWord_noted _ _ p).setVerify v
  split
  · rw [finishVerify]
    dsimp only
    have finished : ∀ q : Part, (latchEvent Source.verifyDone q).verify = q.verify := fun q => (latchEvent_noted _ q).frame ▸ rfl
    exact {
      noted := by
        rw [finished]
        exact (read _).trans (latchEvent_noted _ _)
      showIx := by rw [finished]; rfl
      wordsRead := by rw [finished]; rfl
      goes := fun _ => .inr ⟨by rw [finished], member_latchEvent (by decide) _⟩ }
  · exact {
      noted := read _
      showIx := rfl
      wordsRead := rfl
      goes := fun on => .inl on }

theorem sweepRead_iterate (m : Nat) (p : Part) (before : ∀ l, l < m → (sweepRead^[l] p).verify.result.state = .inProgress) :
    Swept p (sweepRead^[m] p) ∧ (sweepRead^[m] p).verify.result.wordsRead = p.verify.result.wordsRead + m ∧
      (p.verify.result.state = .inProgress → (sweepRead^[m] p).verify.result.state = .inProgress ∨
        0 < m ∧ (sweepRead^[m] p).verify.result.state = .done ∧ (sweepRead^[m] p).events.latches.getLsbD 25 = true) := by
  induction m with
  | zero => exact ⟨Swept.refl p, rfl, .inl⟩
  | succ m ih =>
    obtain ⟨swept, words, -⟩ := ih fun l less => before l (Nat.lt_succ_of_lt less)
    have once := sweepRead_once (sweepRead^[m] p)
    rw [Function.iterate_succ_apply']
    refine ⟨swept.trans once.toSwept, by rw [once.wordsRead, words, Nat.add_assoc], fun _ => ?_⟩
    exact (once.goes (before m (Nat.lt_succ_self m))).imp_right fun done => ⟨Nat.succ_pos m, done⟩

/-! ## VERIFY SHOW (R167) -/

/-- Settles O52. -/
theorem verifySweepBeginsReadsAndFinishes : Obligations.VerifySweepBeginsReadsAndFinishes := by
  refine ⟨fun s running => ⟨fun e rest waiting => ?_, fun idle => ?_, fun on => ?_⟩, fun x i => ?_, fun p on => ?_⟩
  · intro p
    have asked : exec .verifyShow s = .next (s.withPart (verifyShowRequest e p)) :=
      onRequest_waiting .verifyShow verifyShowRequest s e rest waiting
    refine ⟨fun beyond => ?_, fun k is => ⟨fun busy => ?_, fun free => ?_⟩⟩
    · rw [asked, verifyShowRequest, index?_beyond beyond]
    · rw [asked, verifyShowRequest, is, index?_val]
      exact congrArg (fun q => Host.Outcome.next (s.withPart q)) (if_pos busy)
    · rw [asked, verifyShowRequest, is, index?_val]
      exact congrArg (fun q => Host.Outcome.next (s.withPart q)) (if_neg free)
  · rw [show exec .verifySweep s = .next (s.withPart (sweepLoop sweepReads s.part)) from run_running _ s running, sweepLoop_over idle]
    rfl
  · have takes : exec .verifySweep s = .next (s.withPart (sweepLoop 1024 s.part)) := run_running _ s running
    obtain ⟨m, le, eq, ends, before⟩ := sweepLoop_iterate 1024 s.part
    obtain ⟨swept, words, goes⟩ := sweepRead_iterate m s.part before
    rw [← eq] at swept words goes
    refine ⟨_, takes, rfl, ?_⟩
    rw [withPart_part]
    have carried := swept.noted.carried
    refine ⟨?_, ⟨m, le, eq, ?_, before⟩, swept.showIx, ⟨⟨carried.lineTime, carried.phase, carried.up, carried.down, carried.words,
      carried.settings, rfl⟩, carried.slots, carried.contexts, carried.bellOwner, carried.figOwner, swept.noted.strikes,
      carried.filter, carried.cal, (swept.noted.rested fun _ => True).out⟩, swept.noted.figures, carried.guard⟩
    · rcases goes on with still | ⟨some, done, latched⟩
      · have all : m = 1024 := ends.resolve_right fun finished => finished still
        exact .inl ⟨still, by rw [words, all]⟩
      · exact .inr ⟨done, by omega, by omega, latched⟩
    · rcases goes on with still | ⟨-, done, -⟩
      · exact .inl (ends.resolve_right fun finished => finished still)
      · exact .inr done
  · rw [VerifySweep.fromItem_succ, ← x.fromItem_enough 7 (i + 1) (by have := x.items_le; omega)]
    rfl
  · intro x v base valid found onTo reads
    have told : ∀ a faults next, x.address v.showIx = a → (∀ w, x.meet v.showIx a w = (faults w, next w)) → reads a faults next :=
      fun a faults next => sweepRead_reads
    clear_value reads
    refine ⟨fun k at_ early => ?_, fun at_ => ?_, ?_, fun i k f at_ figure => ?_, fun i b pointer => ⟨fun at_ => ?_, ?_⟩⟩
    · exact told _ _ _ (address_entry at_) (meet_entry at_ early)
    · intro y
      exact told _ _ _ (address_entry at_) (meet_lastEntry at_)
    · intro b pointer h least rowMap
      refine ⟨fun at_ => ?_, fun at_ unread => ?_, fun u at_ read => ?_, fun k at_ => ?_, fun n k at_ => ?_⟩
      · exact told _ _ _ (address_header pointer at_) (meet_firstHeader at_)
      · exact told _ _ _ (address_header pointer at_) (meet_headerUnread at_ unread)
      · intro y g beyond
        exact told _ _ _ (address_header pointer at_) (meet_header pointer at_ read)
      · intro y
        exact told _ _ _ (address_rowMap pointer at_) (meet_rowMap at_)
      · exact told _ _ _ (address_row pointer at_) (meet_row at_)
    · intro y
      exact told _ _ _ (address_figure figure at_) (meet_figure at_)
    · intro beyond
      exact told _ _ _ (address_pathHeader pointer at_) (meet_pathHeader at_)
    · intro j at_ y
      exact told _ _ _ (address_keyframe pointer at_) (meet_keyframe at_)

end Sys2Proof.Machine
end
